-- ==== Sys2Proof/Word.lean ====
section
/-! DEFINITION. The widths of the machine: the plain word types of 00_scope.md rule R6 and rule R71. -/

namespace Sys2Proof

/-- An 8-bit register, timer, memory byte or immediate `nn` (R6 `REG_WIDTH`, R71 `nn`). -/
abbrev Byte := BitVec 8

/-- A 16-bit value: `pc`, `I`, a stack slot, an instruction word (R6 `PC_WIDTH`, `I_WIDTH`, R70). -/
abbrev Word := BitVec 16

/-- A 4-bit field: the register indices `x`, `y`, the low nibble `n`, a key number (R71, R30). -/
abbrev Nibble := BitVec 4

/-- A 12-bit address field `nnn` (R71). -/
abbrev Addr12 := BitVec 12

end Sys2Proof
end

