-- ==== Sys2Proof/Config.lean ====
section
/-! DEFINITION. What is fixed for one machine: the variant, the quirk flags' type, the parameters of 00_scope.md rule R6, and the free value of the random source. -/

namespace Sys2Proof

/-- The three instruction-set variants (R2, R31): "one of {Baseline, Extended, ExtendedAlt}". -/
inductive Variant
  | baseline
  | extended
  | extendedAlt
  deriving DecidableEq, Repr

/-- The flags of the Quirk Resolver (R32), under the document's own names. -/
structure Quirks where
  shiftCopiesSource             : Bool
  logicResetsFlag               : Bool
  incrementsIndexOnBulkTransfer : Bool
  offsetJumpUsesRegister        : Bool
  clipsAtEdge                   : Bool
  deriving DecidableEq, Repr

/-- What a store into the font region 0x000..0x04F does: parameter `FONT_REGION_WRITE` (R6, R55). -/
inductive FontPolicy
  /-- The store raises `FontRegionWrite` before any write: this hardware's value. -/
  | fault
  /-- The byte is stored like any other. -/
  | write
  /-- The byte is dropped silently. -/
  | ignore
  deriving DecidableEq, Repr

/-- The bytes of the font's glyphs 1..F, 5 for each, in the order of their addresses 0x005..0x04F (R52). -/
abbrev Glyphs := Vector Byte 75

/-- The parameters of R6 that stand open, fixed for the lifetime of the machine. They stand in the state, so that a claim holds for every value of them; no step writes them. -/
structure Config where
  /-- `FONT_REGION_WRITE` (R55). -/
  fontRegionWrite           : FontPolicy
  /-- `EXTENDED_OPCODES_IN_BASELINE` (R77). -/
  extendedOpcodesInBaseline : Bool
  /-- `FONT_TABLE`: the glyphs 1..F, which the document does not give (R52, D27). -/
  fontTable                 : Glyphs
  deriving DecidableEq, Repr

/-- The random source (R35, R113, D22): draw number `k` of a run is `Config.rngDraw k`, any value 0..255
under no law. A FREE VALUE: the constant has no body, so no proof can see what it is (assumption log 4). -/
opaque Config.rngDraw : Nat → Byte

end Sys2Proof
end

