-- ==== Sys2Proof/Machine/Font.lean ====
section
/-! DEFINITION. The built-in font (20_memory.md rule R52): glyph 0, the default of the parameter `FONT_TABLE` for glyphs 1..F, and this hardware's parameters (00_scope.md rule R6). -/

namespace Sys2Proof

/-- Glyph 0, the one glyph the document gives (R52). -/
def glyphZero : List Byte := [0xF0, 0x90, 0x90, 0x90, 0xF0]

/-- Glyphs 1..7 of the default `FONT_TABLE` (R52). -/
def standardGlyphsLow : List Byte :=
  [0x20, 0x60, 0x20, 0x20, 0x70] ++
  [0xF0, 0x10, 0xF0, 0x80, 0xF0] ++ [0xF0, 0x10, 0xF0, 0x10, 0xF0] ++
  [0x90, 0x90, 0xF0, 0x10, 0x10] ++ [0xF0, 0x80, 0xF0, 0x10, 0xF0] ++
  [0xF0, 0x80, 0xF0, 0x90, 0xF0] ++ [0xF0, 0x10, 0x20, 0x40, 0x40]

/-- Glyphs 8..F of the default `FONT_TABLE` (R52). -/
def standardGlyphsHigh : List Byte :=
  [0xF0, 0x90, 0xF0, 0x90, 0xF0] ++ [0xF0, 0x90, 0xF0, 0x10, 0xF0] ++
  [0xF0, 0x90, 0xF0, 0x90, 0x90] ++ [0xE0, 0x90, 0xE0, 0x90, 0xE0] ++
  [0xF0, 0x80, 0x80, 0x80, 0xF0] ++ [0xE0, 0x90, 0x90, 0x90, 0xE0] ++
  [0xF0, 0x80, 0xF0, 0x80, 0xF0] ++ [0xF0, 0x80, 0xF0, 0x80, 0x80]

/-- The default of `FONT_TABLE`: "the standard CHIP-8 font" (R52, D27; assumption log 8). -/
def standardGlyphs : Glyphs := ⟨(standardGlyphsLow ++ standardGlyphsHigh).toArray, rfl⟩

/-- The 80 bytes of the font at 0x000..0x04F for a `FONT_TABLE` (R51, R52). -/
def fontBytes (glyphs : Glyphs) : List Byte := glyphZero ++ glyphs.toList

/-- The value this hardware takes for each parameter (R6): `Fault`, `false` and the default font. -/
def Config.hardware : Config :=
  { fontRegionWrite := .fault, extendedOpcodesInBaseline := false, fontTable := standardGlyphs }

end Sys2Proof
end

