-- ==== Sys2Proof/Syntax.lean ====
section
/-! DEFINITION. The instructions: one constructor for each of the 40 rows of spec/opcode_table.json (30_encoding.md rule R76), in the table's order. Operands carry the width of their field (R71). -/

namespace Sys2Proof

/-- An instruction of the opcode map (R76). `x` and `y` name registers, `n` is a count, `nn` a byte and
`nnn` an address. -/
inductive Instr
  /-- 00E0 `CLS`. -/
  | cls
  /-- 00EE `RET`. -/
  | ret
  /-- 00CN `SCD n`. -/
  | scd (n : Nibble)
  /-- 00FB `SCR`. -/
  | scr
  /-- 00FC `SCL`. -/
  | scl
  /-- 00FD `EXIT`, the halt sentinel. -/
  | exit
  /-- 00FE `LOW`. -/
  | low
  /-- 00FF `HIGH`. -/
  | high
  /-- 1NNN `JP nnn`. -/
  | jp (nnn : Addr12)
  /-- 2NNN `CALL nnn`. -/
  | call (nnn : Addr12)
  /-- 3XNN `SE Vx, nn`. -/
  | seImm (x : Nibble) (nn : Byte)
  /-- 4XNN `SNE Vx, nn`. -/
  | sneImm (x : Nibble) (nn : Byte)
  /-- 5XY0 `SE Vx, Vy`. -/
  | seReg (x y : Nibble)
  /-- 6XNN `LD Vx, nn`. -/
  | ldImm (x : Nibble) (nn : Byte)
  /-- 7XNN `ADD Vx, nn`. -/
  | addImm (x : Nibble) (nn : Byte)
  /-- 8XY0 `LD Vx, Vy`. -/
  | ldReg (x y : Nibble)
  /-- 8XY1 `OR Vx, Vy`. -/
  | or (x y : Nibble)
  /-- 8XY2 `AND Vx, Vy`. -/
  | and (x y : Nibble)
  /-- 8XY3 `XOR Vx, Vy`. -/
  | xor (x y : Nibble)
  /-- 8XY4 `ADD Vx, Vy`. -/
  | addReg (x y : Nibble)
  /-- 8XY5 `SUB Vx, Vy`. -/
  | sub (x y : Nibble)
  /-- 8XY6 `SHR Vx, Vy`. -/
  | shr (x y : Nibble)
  /-- 8XY7 `SUBN Vx, Vy`. -/
  | subn (x y : Nibble)
  /-- 8XYE `SHL Vx, Vy`. -/
  | shl (x y : Nibble)
  /-- 9XY0 `SNE Vx, Vy`. -/
  | sneReg (x y : Nibble)
  /-- ANNN `LD I, nnn`. -/
  | ldI (nnn : Addr12)
  /-- BNNN `JP V0, nnn`: the row's second field `x` is `nnn[11:8]` (R163), so `nnn` holds both. -/
  | jpV0 (nnn : Addr12)
  /-- CXNN `RND Vx, nn`. -/
  | rnd (x : Nibble) (nn : Byte)
  /-- DXYN `DRW Vx, Vy, n`. -/
  | drw (x y n : Nibble)
  /-- EX9E `SKP Vx`. -/
  | skp (x : Nibble)
  /-- EXA1 `SKNP Vx`. -/
  | sknp (x : Nibble)
  /-- FX07 `LD Vx, DT`. -/
  | ldVxDt (x : Nibble)
  /-- FX0A `LD Vx, K`. -/
  | ldVxK (x : Nibble)
  /-- FX15 `LD DT, Vx`. -/
  | ldDtVx (x : Nibble)
  /-- FX18 `LD ST, Vx`. -/
  | ldStVx (x : Nibble)
  /-- FX1E `ADD I, Vx`. -/
  | addIVx (x : Nibble)
  /-- FX29 `LD F, Vx`. -/
  | ldFVx (x : Nibble)
  /-- FX33 `LD B, Vx`. -/
  | ldBVx (x : Nibble)
  /-- FX55 `LD [I], Vx`. -/
  | ldMemVx (x : Nibble)
  /-- FX65 `LD Vx, [I]`. -/
  | ldVxMem (x : Nibble)
  deriving DecidableEq, Repr

end Sys2Proof
end

