-- ==== Sys2Proof/WellFormed.lean ====
section
/-! DEFINITION. Which instructions a machine has: the variant gating of 30_encoding.md rule R77. Operand ranges need no check, since each operand has its field's width as its type. -/

namespace Sys2Proof

/-- The five instructions that only the two supersets have: 00CN, 00FB, 00FC, 00FE, 00FF (R77). -/
def Instr.extendedOnly : Instr → Bool
  | .scd _ | .scr | .scl | .low | .high => true
  | .cls | .ret | .exit | .jp _ | .call _ | .seImm _ _ | .sneImm _ _ | .seReg _ _ | .ldImm _ _
  | .addImm _ _ | .ldReg _ _ | .or _ _ | .and _ _ | .xor _ _ | .addReg _ _ | .sub _ _ | .shr _ _
  | .subn _ _ | .shl _ _ | .sneReg _ _ | .ldI _ | .jpV0 _ | .rnd _ _ | .drw _ _ _ | .skp _
  | .sknp _ | .ldVxDt _ | .ldVxK _ | .ldDtVx _ | .ldStVx _ | .addIVx _ | .ldFVx _ | .ldBVx _
  | .ldMemVx _ | .ldVxMem _ => false

/-- An instruction is well formed on a machine of variant `v` with parameters `c` unless it is one of the
five superset instructions, the variant is Baseline and `EXTENDED_OPCODES_IN_BASELINE` is false (R77). -/
def Instr.wellFormed (v : Variant) (c : Config) (i : Instr) : Bool :=
  !i.extendedOnly || decide (v ≠ .baseline) || c.extendedOpcodesInBaseline

end Sys2Proof
end

