-- ==== Sys2Proof/Decode.lean ====
section
/-! DEFINITION. The decoder and, after it, the encoder: 30_encoding.md rules R70 to R78. The decoder reads big-endian bytes, is total, and rejects by name. -/

namespace Sys2Proof

/-- Why bytes are no instruction. Every case is the spec's one `DecodeError` (R78), but for `truncated`,
which only a byte list shorter than a word can give (a fetch always has two bytes). -/
inductive DecodeReject
  /-- Fewer than the two bytes of an instruction word (R70). -/
  | truncated
  /-- A word that the opcode map of R76 gives to no instruction (R78). -/
  | noSuchWord (op : Word)
  /-- A word of a superset instruction on a machine that does not decode it (R77). -/
  | notInVariant (op : Word)
  deriving DecidableEq, Repr

/-- Field `p`, op[15:12] (R71). -/
def fieldP (op : Word) : Nibble := op.extractLsb' 12 4
/-- Field `x`, op[11:8] (R71). -/
def fieldX (op : Word) : Nibble := op.extractLsb' 8 4
/-- Field `y`, op[7:4] (R71). -/
def fieldY (op : Word) : Nibble := op.extractLsb' 4 4
/-- Field `n`, op[3:0] (R71). -/
def fieldN (op : Word) : Nibble := op.extractLsb' 0 4
/-- Field `nnn`, op[11:0] (R71). -/
def fieldNNN (op : Word) : Addr12 := op.extractLsb' 0 12
/-- Field `nn`, op[7:0] (R71). -/
def fieldNN (op : Word) : Byte := op.extractLsb' 0 8

/-- The big-endian word of two bytes: the first byte is op[15:8] (R56, R70). -/
def wordOfBytes (hi lo : Byte) : Word := hi ++ lo
/-- The byte op[15:8], which stands at the lower address (R56). -/
def highByte (op : Word) : Byte := op.extractLsb' 8 8
/-- The byte op[7:0] (R56). -/
def lowByte (op : Word) : Byte := op.extractLsb' 0 8

/-- Primary nibble 0: eight words; `x` must be 0 in each of them (R76). -/
def decodeSystem (op : Word) : Option Instr :=
  match fieldX op, fieldNN op with
  | 0x0#4, 0xE0#8 => some .cls
  | 0x0#4, 0xEE#8 => some .ret
  | 0x0#4, 0xFB#8 => some .scr
  | 0x0#4, 0xFC#8 => some .scl
  | 0x0#4, 0xFD#8 => some .exit
  | 0x0#4, 0xFE#8 => some .low
  | 0x0#4, 0xFF#8 => some .high
  | 0x0#4, _ => if fieldY op = 0xC#4 then some (.scd (fieldN op)) else none
  | _, _ => none

/-- Primary nibble 8: the function nibble selects (R76). -/
def decodeRegister (op : Word) : Option Instr :=
  let x := fieldX op
  let y := fieldY op
  match fieldN op with
  | 0x0#4 => some (.ldReg x y)
  | 0x1#4 => some (.or x y)
  | 0x2#4 => some (.and x y)
  | 0x3#4 => some (.xor x y)
  | 0x4#4 => some (.addReg x y)
  | 0x5#4 => some (.sub x y)
  | 0x6#4 => some (.shr x y)
  | 0x7#4 => some (.subn x y)
  | 0xE#4 => some (.shl x y)
  | _ => none

/-- Primary nibble E: the two key skips (R76). -/
def decodeKey (op : Word) : Option Instr :=
  match fieldNN op with
  | 0x9E#8 => some (.skp (fieldX op))
  | 0xA1#8 => some (.sknp (fieldX op))
  | _ => none

/-- Primary nibble F: the function byte selects (R76). -/
def decodeMisc (op : Word) : Option Instr :=
  let x := fieldX op
  match fieldNN op with
  | 0x07#8 => some (.ldVxDt x)
  | 0x0A#8 => some (.ldVxK x)
  | 0x15#8 => some (.ldDtVx x)
  | 0x18#8 => some (.ldStVx x)
  | 0x1E#8 => some (.addIVx x)
  | 0x29#8 => some (.ldFVx x)
  | 0x33#8 => some (.ldBVx x)
  | 0x55#8 => some (.ldMemVx x)
  | 0x65#8 => some (.ldVxMem x)
  | _ => none

/-- The opcode map of R76, without the gating of R77: the instruction a word stands for in some variant. -/
def decodeMap (op : Word) : Option Instr :=
  match fieldP op with
  | 0x0#4 => decodeSystem op
  | 0x1#4 => some (.jp (fieldNNN op))
  | 0x2#4 => some (.call (fieldNNN op))
  | 0x3#4 => some (.seImm (fieldX op) (fieldNN op))
  | 0x4#4 => some (.sneImm (fieldX op) (fieldNN op))
  | 0x5#4 => if fieldN op = 0x0#4 then some (.seReg (fieldX op) (fieldY op)) else none
  | 0x6#4 => some (.ldImm (fieldX op) (fieldNN op))
  | 0x7#4 => some (.addImm (fieldX op) (fieldNN op))
  | 0x8#4 => decodeRegister op
  | 0x9#4 => if fieldN op = 0x0#4 then some (.sneReg (fieldX op) (fieldY op)) else none
  | 0xA#4 => some (.ldI (fieldNNN op))
  | 0xB#4 => some (.jpV0 (fieldNNN op))
  | 0xC#4 => some (.rnd (fieldX op) (fieldNN op))
  | 0xD#4 => some (.drw (fieldX op) (fieldY op) (fieldN op))
  | 0xE#4 => decodeKey op
  | _ => decodeMisc op

/-- The decoder of a machine of variant `v` with parameters `c`: the opcode map (R76), the words it does
not list rejected (R78), the superset words gated (R77). -/
def decode (v : Variant) (c : Config) (op : Word) : Except DecodeReject Instr :=
  match decodeMap op with
  | none => .error (.noSuchWord op)
  | some i => if i.wellFormed v c then .ok i else .error (.notInVariant op)

/-- The decoder on bytes: the first instruction of the list, and the bytes after it (R70). -/
def decodeBytes (v : Variant) (c : Config) : List Byte → Except DecodeReject (Instr × List Byte)
  | hi :: lo :: rest =>
    match decode v c (wordOfBytes hi lo) with
    | .ok i => .ok (i, rest)
    | .error e => .error e
  | _ => .error .truncated

/-- The instruction a word of spec/opcode_table.json's numbering decodes to, in a variant that has all 40
(the host's question; every row of the table is one 16-bit word, so `nbits` is 16). -/
def decodeTableWord (_nbits w : Nat) : Option Instr :=
  let op : Word := BitVec.ofNat 16 w
  match decodeBytes .extended Config.hardware [highByte op, lowByte op] with
  | .ok (i, _) => some i
  | .error _ => none

/-- Format `XNN` and, with `nn` a function byte, `XKK` (R73). -/
def wordXNN (p x : Nibble) (nn : Byte) : Word := p ++ x ++ nn
/-- Format `NNN` (R73). -/
def wordNNN (p : Nibble) (nnn : Addr12) : Word := p ++ nnn
/-- Formats `XY0`, `XYK` and `XYN` (R73). -/
def wordXYN (p x y n : Nibble) : Word := p ++ x ++ y ++ n

/-- The word of an instruction: the pattern of R73 that R76 gives it, with the operands in the fields of
R71. -/
def encode : Instr → Word
  | .cls => 0x00E0
  | .ret => 0x00EE
  | .scd n => wordXYN 0x0 0x0 0xC n
  | .scr => 0x00FB
  | .scl => 0x00FC
  | .exit => 0x00FD
  | .low => 0x00FE
  | .high => 0x00FF
  | .jp nnn => wordNNN 0x1 nnn
  | .call nnn => wordNNN 0x2 nnn
  | .seImm x nn => wordXNN 0x3 x nn
  | .sneImm x nn => wordXNN 0x4 x nn
  | .seReg x y => wordXYN 0x5 x y 0x0
  | .ldImm x nn => wordXNN 0x6 x nn
  | .addImm x nn => wordXNN 0x7 x nn
  | .ldReg x y => wordXYN 0x8 x y 0x0
  | .or x y => wordXYN 0x8 x y 0x1
  | .and x y => wordXYN 0x8 x y 0x2
  | .xor x y => wordXYN 0x8 x y 0x3
  | .addReg x y => wordXYN 0x8 x y 0x4
  | .sub x y => wordXYN 0x8 x y 0x5
  | .shr x y => wordXYN 0x8 x y 0x6
  | .subn x y => wordXYN 0x8 x y 0x7
  | .shl x y => wordXYN 0x8 x y 0xE
  | .sneReg x y => wordXYN 0x9 x y 0x0
  | .ldI nnn => wordNNN 0xA nnn
  | .jpV0 nnn => wordNNN 0xB nnn
  | .rnd x nn => wordXNN 0xC x nn
  | .drw x y n => wordXYN 0xD x y n
  | .skp x => wordXNN 0xE x 0x9E
  | .sknp x => wordXNN 0xE x 0xA1
  | .ldVxDt x => wordXNN 0xF x 0x07
  | .ldVxK x => wordXNN 0xF x 0x0A
  | .ldDtVx x => wordXNN 0xF x 0x15
  | .ldStVx x => wordXNN 0xF x 0x18
  | .addIVx x => wordXNN 0xF x 0x1E
  | .ldFVx x => wordXNN 0xF x 0x29
  | .ldBVx x => wordXNN 0xF x 0x33
  | .ldMemVx x => wordXNN 0xF x 0x55
  | .ldVxMem x => wordXNN 0xF x 0x65

/-- The bytes of an instruction as memory holds them, the high byte first (R56). -/
def encodeBytes (i : Instr) : List Byte := [highByte (encode i), lowByte (encode i)]

/-- A row of spec/opcode_table.json: an instruction's word `w` has `w &&& mask = pattern`. -/
structure TableRow where
  pattern : Word
  mask    : Word
  deriving DecidableEq, Repr

/-- The `match` and `mask` of each instruction's row, transcribed from spec/opcode_table.json. -/
def tableRow : Instr → TableRow
  | .cls => ⟨0x00E0, 0xFFFF⟩
  | .ret => ⟨0x00EE, 0xFFFF⟩
  | .scd _ => ⟨0x00C0, 0xFFF0⟩
  | .scr => ⟨0x00FB, 0xFFFF⟩
  | .scl => ⟨0x00FC, 0xFFFF⟩
  | .exit => ⟨0x00FD, 0xFFFF⟩
  | .low => ⟨0x00FE, 0xFFFF⟩
  | .high => ⟨0x00FF, 0xFFFF⟩
  | .jp _ => ⟨0x1000, 0xF000⟩
  | .call _ => ⟨0x2000, 0xF000⟩
  | .seImm _ _ => ⟨0x3000, 0xF000⟩
  | .sneImm _ _ => ⟨0x4000, 0xF000⟩
  | .seReg _ _ => ⟨0x5000, 0xF00F⟩
  | .ldImm _ _ => ⟨0x6000, 0xF000⟩
  | .addImm _ _ => ⟨0x7000, 0xF000⟩
  | .ldReg _ _ => ⟨0x8000, 0xF00F⟩
  | .or _ _ => ⟨0x8001, 0xF00F⟩
  | .and _ _ => ⟨0x8002, 0xF00F⟩
  | .xor _ _ => ⟨0x8003, 0xF00F⟩
  | .addReg _ _ => ⟨0x8004, 0xF00F⟩
  | .sub _ _ => ⟨0x8005, 0xF00F⟩
  | .shr _ _ => ⟨0x8006, 0xF00F⟩
  | .subn _ _ => ⟨0x8007, 0xF00F⟩
  | .shl _ _ => ⟨0x800E, 0xF00F⟩
  | .sneReg _ _ => ⟨0x9000, 0xF00F⟩
  | .ldI _ => ⟨0xA000, 0xF000⟩
  | .jpV0 _ => ⟨0xB000, 0xF000⟩
  | .rnd _ _ => ⟨0xC000, 0xF000⟩
  | .drw _ _ _ => ⟨0xD000, 0xF000⟩
  | .skp _ => ⟨0xE09E, 0xF0FF⟩
  | .sknp _ => ⟨0xE0A1, 0xF0FF⟩
  | .ldVxDt _ => ⟨0xF007, 0xF0FF⟩
  | .ldVxK _ => ⟨0xF00A, 0xF0FF⟩
  | .ldDtVx _ => ⟨0xF015, 0xF0FF⟩
  | .ldStVx _ => ⟨0xF018, 0xF0FF⟩
  | .addIVx _ => ⟨0xF01E, 0xF0FF⟩
  | .ldFVx _ => ⟨0xF029, 0xF0FF⟩
  | .ldBVx _ => ⟨0xF033, 0xF0FF⟩
  | .ldMemVx _ => ⟨0xF055, 0xF0FF⟩
  | .ldVxMem _ => ⟨0xF065, 0xF0FF⟩

end Sys2Proof
end

