-- ==== Sys2Proof/Machine/State.lean ====
section
/-! DEFINITION. The state of the execution core as plain data (10_state.md rules R20 to R40) and its value after construction (R38, R290). -/

namespace Sys2Proof.Machine

open Sys2Proof

/-- The rendering mode (R28): "enum {Low, High}". -/
inductive Mode
  | low
  | high
  deriving DecidableEq, Repr

/-- The sound signal of a tick (R37). -/
inductive Sound
  | play
  | pause
  deriving DecidableEq, Repr

/-- The errors of R250, with the information each records. The load error (code 6) is a result of the
host operation `load` and not one of these (R294). -/
inductive CoreError
  /-- A word with no instruction (R251): the word, and the address it was fetched from. -/
  | decodeError (op addr : Word)
  /-- 00EE with SP = 0 (R252): the instruction's address. -/
  | stackUnderflow (addr : Word)
  /-- 2NNN with SP = 15 (R253): the instruction's address. -/
  | stackOverflow (addr : Word)
  /-- A fetch or data access at an address ≥ 0x1000 (R254): the first such address. -/
  | addressError (addr : Word)
  /-- A store into 0x000..0x04F under policy `Fault` (R255): the first such address. -/
  | fontRegionWrite (addr : Word)
  deriving DecidableEq, Repr

/-- The outcome of a tick (R250, R266, R267): `Ok` or `Error(code, info)`. -/
inductive TickResult
  | ok
  | error (e : CoreError)
  deriving DecidableEq, Repr

/-- Memory (R50): (address, byte) pairs in one canonical form (`Memory.wf`), over what an unlisted address
reads as (`Memory.background`). -/
abbrev Memory := List Host.Cell

/-- The display buffer (R27), 64 rows of 128 pixels: `disp[row][col]` is bit `col` of row `row`
(assumption log 9: the packing, which nothing observes). -/
abbrev Display := Vector (BitVec 128) 64

/-- The machine state (R20), the tick controller's (R34, R37, R40), the parameters (R6) and three fields of
the model's own: `faultLog` (D19), `rngDraws` (the free value's counter) and the arguments of the next
tick (R33), which the driving loop supplies. -/
structure State where
  /-- V0..VF (R21). -/
  v              : Vector Byte 16
  /-- The program counter (R23). -/
  pc             : Word
  /-- The index register I (R24). -/
  i              : Word
  /-- The return stack (R25). -/
  stack          : Vector Word 16
  /-- SP, the number of saved return addresses (R25): 0..15. -/
  sp             : Fin 16
  /-- The delay timer (R26). -/
  dt             : Byte
  /-- The sound timer (R26). -/
  st             : Byte
  /-- Memory (R50). -/
  mem            : Memory
  /-- The display buffer (R27). -/
  disp           : Display
  /-- The rendering mode (R28). -/
  mode           : Mode
  /-- `displayUpdated` (R29). -/
  dirty          : Bool
  /-- The key states (R30). -/
  keys           : Vector Bool 16
  /-- The variant (R31), fixed. -/
  variant        : Variant
  /-- The parameters (R6), fixed. -/
  config         : Config
  /-- `haltedThisTick` (R34). -/
  haltedThisTick : Bool
  /-- The signal of the most recent tick (R37); `none` before the first. -/
  sound          : Option Sound
  /-- The position within a tick's batch (R40): the instruction cycles left; 0 between ticks. -/
  batchLeft      : Nat
  /-- `INSTRUCTIONS_PER_FRAME`, the argument the driving loop gives the next tick (R33). -/
  ipf            : Nat
  /-- `SPEED_MULTIPLIER`, the argument the driving loop gives the next tick (R33). -/
  speed          : Nat
  /-- `tick_result` (R36) of the most recent tick that ended; `none` before one has, and during one. -/
  tickResult     : Option TickResult
  /-- The model's own sticky record of errors (R274, D19), the latest first; no step clears it. -/
  faultLog       : List CoreError
  /-- The model's own count of random draws: the next draw is `Config.rngDraw rngDraws`. -/
  rngDraws       : Nat
  deriving DecidableEq, Repr

/-- What stops the machine. There is none: the core "has no terminal state" (R274), and every error of R250
is an outcome after which the state is defined and the next tick goes on (R256, R259), so it is a NEXT
state here, taken by `State.raise`. Nobody raises a fault (safe: the type is empty). -/
inductive Fault
  deriving DecidableEq, Repr

/-- Why an instruction has no meaning here. -/
inductive Refusal
  /-- Raised by an arm of `exec` whose instruction has no meaning yet (safe). No arm does. -/
  | notModelled (mnemonic : String)
  deriving DecidableEq, Repr

/-- Construction with a variant and parameters (R290): `pc` at `PROGRAM_START`, the font in memory (it is
what the unlisted addresses 0x000..0x04F read as), everything else zero, false or `Low` (R38, D2).
`ipf` is its default 10 (R33); `speed` = 1 is assumption log 3. -/
def State.construct (variant : Variant) (config : Config) : State :=
  { v := Vector.replicate 16 0
    pc := 0x200
    i := 0
    stack := Vector.replicate 16 0
    sp := 0
    dt := 0
    st := 0
    mem := []
    disp := Vector.replicate 64 0
    mode := .low
    dirty := false
    keys := Vector.replicate 16 false
    variant := variant
    config := config
    haltedThisTick := false
    sound := none
    batchLeft := 0
    ipf := 10
    speed := 1
    tickResult := none
    faultLog := []
    rngDraws := 0 }

/-- The machine right after reset (R38). The variant is an argument of construction (R2); reset takes
Extended, which decodes every row of the opcode table (assumption log 2). -/
def State.reset : State := State.construct .extended Config.hardware

end Sys2Proof.Machine
end

