-- ==== Sys2Proof/Machine/Ops.lean ====
section
/-! DEFINITION. The named operations over registers, memory, the pc and the stack, and taking an error outcome: 10_state.md, 20_memory.md, 60_exceptions.md. -/

namespace Sys2Proof.Machine

open Sys2Proof

/-! ## The Quirk Resolver (R32) -/

/-- `quirks(variant)`, the table of R32. -/
def quirks : Variant → Quirks
  | .baseline =>
    { shiftCopiesSource := true, logicResetsFlag := true, incrementsIndexOnBulkTransfer := true,
      offsetJumpUsesRegister := false, clipsAtEdge := true }
  | .extended =>
    { shiftCopiesSource := false, logicResetsFlag := false, incrementsIndexOnBulkTransfer := false,
      offsetJumpUsesRegister := true, clipsAtEdge := true }
  | .extendedAlt =>
    { shiftCopiesSource := false, logicResetsFlag := false, incrementsIndexOnBulkTransfer := false,
      offsetJumpUsesRegister := false, clipsAtEdge := false }

/-- `quirk.<name>` for the configured variant (R9). -/
def State.quirk (s : State) : Quirks := quirks s.variant

/-! ## Registers and keys (R21, R30) -/

/-- `V[x]` (R9). -/
def State.reg (s : State) (x : Nibble) : Byte := s.v[x.toNat]'x.isLt

/-- `V[x] <- b` (R9). -/
def State.setReg (s : State) (x : Nibble) (b : Byte) : State :=
  { s with v := s.v.set x.toNat b x.isLt }

/-- `key[k]` (R30). -/
def State.key (s : State) (k : Nibble) : Bool := s.keys[k.toNat]'k.isLt

/-! ## Memory (R50 to R61) -/

/-- The first address past memory (R6 `MEM_SIZE`, R53). -/
def memSize : Nat := 0x1000

/-- The first address past the font (R51; 90_conflicts.md C1). -/
def fontEnd : Nat := 0x50

/-- `PROGRAM_START` (R6). -/
def programStart : Nat := 0x200

/-- What an unlisted address reads as: the contents after construction (R38), the font at 0x000..0x04F and
zero above it. -/
def Memory.background (glyphs : Glyphs) (a : Nat) : Byte := (fontBytes glyphs).getD a 0

/-- The byte at an address. -/
def Memory.read : Memory → Glyphs → Nat → Byte
  | [], glyphs, a => Memory.background glyphs a
  | (k, b) :: m, glyphs, a => if a = k then b else Memory.read m glyphs a

/-- The memory without an entry for an address. -/
def Memory.erase (m : Memory) (a : Nat) : Memory := m.filter fun cell => decide (cell.1 ≠ a)

/-- The memory with an entry for an address, in its place. -/
def Memory.insert : Memory → Nat → Byte → Memory
  | [], a, b => [(a, b)]
  | (k, c) :: m, a, b =>
    if a < k then (a, b) :: (k, c) :: m
    else if a = k then (a, b) :: m
    else (k, c) :: Memory.insert m a b

/-- The byte at an address set: no entry is kept that equals what the unlisted address reads as. -/
def Memory.write (m : Memory) (glyphs : Glyphs) (a : Nat) (b : Byte) : Memory :=
  if b = Memory.background glyphs a then m.erase a else m.insert a b

/-- Every address of the list is at least `lo`, they rise strictly, all lie inside memory, and no entry
equals what the unlisted address reads as. -/
def Memory.wfFrom (glyphs : Glyphs) : Nat → Memory → Bool
  | _, [] => true
  | lo, (k, b) :: m =>
    decide (lo ≤ k) && decide (k < memSize) && decide (b ≠ Memory.background glyphs k) &&
      Memory.wfFrom glyphs (k + 1) m

/-- The canonical form of memory, for a font. -/
def Memory.wf (m : Memory) (glyphs : Glyphs) : Bool := Memory.wfFrom glyphs 0 m

/-- The byte of memory at an address, for claims about "every byte of memory". -/
def State.byteAt (s : State) (a : Nat) : Byte := s.mem.read s.config.fontTable a

/-- The byte at an address set, whatever the font policy: the loader's write. -/
def State.setByte (s : State) (a : Nat) (b : Byte) : State :=
  { s with mem := s.mem.write s.config.fontTable a b }

/-- `MemRead(a, 1)` at an address already checked (R54). Reads have no side effect (R60). -/
def State.memRead (s : State) (a : Word) : Byte := s.byteAt a.toNat

/-- An address outside memory (R53). -/
def outsideMemory (a : Word) : Bool := decide (memSize ≤ a.toNat)

/-- An address in the font region 0x000..0x04F (R51, R55). -/
def inFont (a : Word) : Bool := decide (a.toNat < fontEnd)

/-- `MemWrite(a, 1, b)` at an address already checked (R54, R55): in the font region only policy `Write`
stores the byte. -/
def State.memWrite (s : State) (a : Word) (b : Byte) : State :=
  if inFont a && decide (s.config.fontRegionWrite ≠ .write) then s
  else s.setByte a.toNat b

/-- The writes of an instruction, in order, all at checked addresses. -/
def State.storeCells (s : State) : List (Word × Byte) → State
  | [] => s
  | (a, b) :: cells => (s.memWrite a b).storeCells cells

/-- The check of an instruction that reads at these addresses: the first one outside memory (R53, R257). -/
def loadError (addrs : List Word) : Option CoreError :=
  (addrs.find? outsideMemory).map .addressError

/-- The checks of an instruction that stores at these addresses: `AddressError` before
`FontRegionWrite`, each for the first address it concerns (R55, R257). -/
def State.storeError (s : State) (addrs : List Word) : Option CoreError :=
  match loadError addrs with
  | some e => some e
  | none =>
    if s.config.fontRegionWrite = .fault then (addrs.find? inFont).map .fontRegionWrite else none

/-! ## The program counter and the fetch (R23, R75) -/

/-- `pc <- (pc + 2) mod 65536`: the advance of a fetch, and a skip (42_control_flow.md). -/
def State.advancePc (s : State) : State := { s with pc := s.pc + 2 }

/-- `pc <- target` (R9). -/
def State.jump (s : State) (target : Word) : State := { s with pc := target }

/-- The address of the running instruction, once `pc` has moved past it: `(pc − 2) mod 65536`. -/
def State.instrAddr (s : State) : Word := s.pc - 2

/-- The error of a fetch at `pc` (R75): `AddressError(pc if pc > 0x0FFF else pc + 1)` when `pc > 0x0FFE`. -/
def State.fetchError (s : State) : Option CoreError :=
  if 0x0FFE < s.pc.toNat then
    some (.addressError (if 0x0FFF < s.pc.toNat then s.pc else s.pc + 1))
  else none

/-- `MemRead(pc, 2)`, big-endian (R54, R56). -/
def State.fetchWord (s : State) : Word := wordOfBytes (s.memRead s.pc) (s.memRead (s.pc + 1))

/-! ## The return stack (R25) -/

/-- `stack[SP] <- w; SP <- SP + 1`, for SP < 15. -/
def State.push (s : State) (w : Word) : State :=
  { s with stack := s.stack.set s.sp.val w s.sp.isLt, sp := s.sp + 1 }

/-- `stack[SP − 1]`, the most recent return address, for SP > 0. -/
def State.top (s : State) : Word := s.stack[(s.sp - 1).val]'(s.sp - 1).isLt

/-- `SP <- SP − 1`, for SP > 0; the slot keeps its value (R162). -/
def State.pop (s : State) : State := { s with sp := s.sp - 1 }

/-! ## Taking an error outcome (R250 to R259) -/

/-- The error's code (R250). -/
def CoreError.code : CoreError → Nat
  | .decodeError _ _ => 1
  | .stackUnderflow _ => 2
  | .stackOverflow _ => 3
  | .addressError _ => 4
  | .fontRegionWrite _ => 5

/-- `raise <Error>(info)`: the one operation by which an error is taken. It ends the tick at once: no cycle
of the batch is left and the tick's result is the error (R258, R267). Nothing is saved, no mode changes
and control goes nowhere (R258), so the state is otherwise the one the error was raised in (R256); the
model's sticky log records it (R274, D19). There is no return-from-trap instruction: the next tick goes on
from this state (R259), which is `State.startTick`. -/
def State.raise (s : State) (e : CoreError) : State :=
  { s with batchLeft := 0, tickResult := some (.error e), faultLog := e :: s.faultLog }

/-- An instruction whose checks are all made before its first write (R256): the first failing check is
raised, or the instruction has its effect. -/
def State.guarded (s : State) (error : Option CoreError) (effect : State) : State :=
  match error with
  | some e => s.raise e
  | none => effect

/-! ## The random source (R35, R113) -/

/-- `draw_rng()`: the next draw, a free value (assumption log 4). -/
def State.draw (s : State) : Byte := Config.rngDraw s.rngDraws

/-- The draw is used up: the next one is another free value. -/
def State.nextDraw (s : State) : State := { s with rngDraws := s.rngDraws + 1 }

end Sys2Proof.Machine
end

