-- ==== Sys2Proof/Machine/Operands.lean ====
section
/-! DEFINITION. The operand forms: I-relative addresses, the offset jump's register, the shift's source, the key a register selects, and the widening of immediates (30_encoding.md rule R74). -/

namespace Sys2Proof.Machine

open Sys2Proof

/-- `zext_16(nnn)` (R74). -/
def zextAddr (nnn : Addr12) : Word := nnn.zeroExtend 16

/-- `zext_16` of a byte (R8). -/
def zextByte (b : Byte) : Word := b.zeroExtend 16

/-- Register number `k` as an operand, for k < 16. -/
def regNumber (k : Nat) : Nibble := BitVec.ofNat 4 k

/-- `(I + k) mod 65536` (R53). -/
def State.indexAddr (s : State) (k : Nat) : Word := s.i + BitVec.ofNat 16 k

/-- The addresses `I .. I + n − 1`, lowest offset first (R53, R257). -/
def State.indexAddrs (s : State) (n : Nat) : List Word := (List.range n).map s.indexAddr

/-- The bytes at `I .. I + n − 1` (R54). -/
def State.indexBytes (s : State) (n : Nat) : List Byte := (s.indexAddrs n).map s.memRead

/-- The three decimal digits of a byte, hundreds first (R143). -/
def bcdDigits (b : Byte) : List Byte := [b / 100, (b / 10) % 10, b % 10]

/-- The registers V0..Vx, in order (R144). -/
def State.regsThrough (s : State) (x : Nibble) : List Byte :=
  (List.range (x.toNat + 1)).map fun k => s.reg (regNumber k)

/-- `V[k] <- t_k` for the list `t_k, t_{k+1}, …` (R145). -/
def State.setRegsFrom (s : State) : Nat → List Byte → State
  | _, [] => s
  | k, b :: bs => (s.setReg (regNumber k) b).setRegsFrom (k + 1) bs

/-- I after a bulk transfer of V0..Vx: advanced by x + 1 under `incrementsIndexOnBulkTransfer`, else
unchanged (R144, R145). -/
def State.indexAfterBulk (s : State) (x : Nibble) : Word :=
  if s.quirk.incrementsIndexOnBulkTransfer then s.indexAddr (x.toNat + 1) else s.i

/-- The value a shift shifts: `Vy` under `shiftCopiesSource`, else `Vx` (R110, R112). -/
def State.shiftSource (s : State) (x y : Nibble) : Byte :=
  if s.quirk.shiftCopiesSource then s.reg y else s.reg x

/-- The offset register of 0xBNNN: `nnn[11:8]` under `offsetJumpUsesRegister`, else V0 (R163). -/
def State.offsetReg (s : State) (nnn : Addr12) : Nibble :=
  if s.quirk.offsetJumpUsesRegister then nnn.extractLsb' 8 4 else 0

/-- The target of the offset jump (R163). -/
def State.offsetTarget (s : State) (nnn : Addr12) : Word :=
  zextAddr nnn + zextByte (s.reg (s.offsetReg nnn))

/-- The low 4 bits of a register, which select a key or a glyph (R142, R168). -/
def State.regLow (s : State) (x : Nibble) : Nibble := (s.reg x).extractLsb' 0 4

/-- The address of a glyph: 5 × its digit (R52, R142). -/
def glyphAddr (d : Nibble) : Word := 5 * d.zeroExtend 16

/-- The lowest pressed key, if any is (R170, D12). -/
def State.lowestKey (s : State) : Option Nibble :=
  ((List.range 16).map regNumber).find? s.key

end Sys2Proof.Machine
end

