-- ==== Sys2Proof/Machine/Flags.lean ====
section
/-! DEFINITION. The flag computations: register VF (10_state.md rule R22), written last (00_scope.md rule R10). -/

namespace Sys2Proof.Machine

open Sys2Proof

/-- The flag register's number (R22). -/
def vf : Nibble := 0xF

/-- A flag as the byte VF holds: 1 or 0. -/
def flagByte (b : Bool) : Byte := if b then 1 else 0

/-- "set to 1 iff the unsigned sum exceeds 255, else 0" (R100, R108). -/
def carryFlag (a b : Byte) : Bool := decide (255 < a.toNat + b.toNat)

/-- "set to 1 iff no borrow occurs (minuend ≥ subtrahend), else 0" (R100, R109, R111). -/
def noBorrowFlag (minuend subtrahend : Byte) : Bool := decide (subtrahend.toNat ≤ minuend.toNat)

/-- The bit a right shift by one shifts out: bit 0 (R110). -/
def shiftedOutRight (b : Byte) : Bool := b.getLsbD 0

/-- The bit a left shift by one shifts out: bit 7 (R112). -/
def shiftedOutLeft (b : Byte) : Bool := b.getLsbD 7

/-- `V[0xF] <- flag`. -/
def State.setFlag (s : State) (b : Bool) : State := s.setReg vf (flagByte b)

/-- A result and then its flag: `V[x] <- r`, `V[0xF] <- flag`, in that order (R10, D10). -/
def State.setResult (s : State) (x : Nibble) (r : Byte) (flag : Bool) : State :=
  (s.setReg x r).setFlag flag

/-- A logic result: `V[x] <- r`, then VF cleared under `logicResetsFlag` (R105 to R107). -/
def State.setLogic (s : State) (x : Nibble) (r : Byte) : State :=
  if s.quirk.logicResetsFlag then s.setResult x r false else s.setReg x r

end Sys2Proof.Machine
end

