-- ==== Sys2Proof/Machine/Alu.lean ====
section
/-! DEFINITION. The meanings of 40_alu.md: register and arithmetic instructions. In each, `pc` is already past the instruction (30_encoding.md rule R75). -/

namespace Sys2Proof.Machine

open Sys2Proof

/-- `LD Vx, nn` (R102). -/
def execLdImm (x : Nibble) (nn : Byte) (s : State) : Host.Outcome State Fault Refusal :=
  .next (s.setReg x nn)

/-- `ADD Vx, nn` (R103): modulo 256, no flag. -/
def execAddImm (x : Nibble) (nn : Byte) (s : State) : Host.Outcome State Fault Refusal :=
  .next (s.setReg x (s.reg x + nn))

/-- `LD Vx, Vy` (R104). -/
def execLdReg (x y : Nibble) (s : State) : Host.Outcome State Fault Refusal :=
  .next (s.setReg x (s.reg y))

/-- `OR Vx, Vy` (R105). -/
def execOr (x y : Nibble) (s : State) : Host.Outcome State Fault Refusal :=
  .next (s.setLogic x (s.reg x ||| s.reg y))

/-- `AND Vx, Vy` (R106). -/
def execAnd (x y : Nibble) (s : State) : Host.Outcome State Fault Refusal :=
  .next (s.setLogic x (s.reg x &&& s.reg y))

/-- `XOR Vx, Vy` (R107). -/
def execXor (x y : Nibble) (s : State) : Host.Outcome State Fault Refusal :=
  .next (s.setLogic x (s.reg x ^^^ s.reg y))

/-- `ADD Vx, Vy` (R108). -/
def execAddReg (x y : Nibble) (s : State) : Host.Outcome State Fault Refusal :=
  .next (s.setResult x (s.reg x + s.reg y) (carryFlag (s.reg x) (s.reg y)))

/-- `SUB Vx, Vy` (R109): `Vx − Vy`. -/
def execSub (x y : Nibble) (s : State) : Host.Outcome State Fault Refusal :=
  .next (s.setResult x (s.reg x - s.reg y) (noBorrowFlag (s.reg x) (s.reg y)))

/-- `SHR Vx, Vy` (R110). -/
def execShr (x y : Nibble) (s : State) : Host.Outcome State Fault Refusal :=
  .next (s.setResult x (s.shiftSource x y >>> 1) (shiftedOutRight (s.shiftSource x y)))

/-- `SUBN Vx, Vy` (R111): `Vy − Vx`. -/
def execSubn (x y : Nibble) (s : State) : Host.Outcome State Fault Refusal :=
  .next (s.setResult x (s.reg y - s.reg x) (noBorrowFlag (s.reg y) (s.reg x)))

/-- `SHL Vx, Vy` (R112). -/
def execShl (x y : Nibble) (s : State) : Host.Outcome State Fault Refusal :=
  .next (s.setResult x (s.shiftSource x y <<< 1) (shiftedOutLeft (s.shiftSource x y)))

/-- `RND Vx, nn` for a draw `r` (R113): `V[x] <- r & nn`, the draw used up. -/
def State.randomResult (s : State) (r : Byte) (x : Nibble) (nn : Byte) : State :=
  (s.setReg x (r &&& nn)).nextDraw

/-- `RND Vx, nn` (R113): the draw is a free value. -/
def execRnd (x : Nibble) (nn : Byte) (s : State) : Host.Outcome State Fault Refusal :=
  .next (s.randomResult s.draw x nn)

end Sys2Proof.Machine
end

