-- ==== Sys2Proof/Machine/ControlFlow.lean ====
section
/-! DEFINITION. The meanings of 42_control_flow.md: jumps, call and return, skips, the key wait and the halt sentinel. -/

namespace Sys2Proof.Machine

open Sys2Proof

/-- A skip: a further `pc <- (pc + 2) mod 65536` when the condition holds. -/
def State.skipIf (s : State) (cond : Bool) : State := if cond then s.advancePc else s

/-- `JP nnn` (R160). -/
def execJp (nnn : Addr12) (s : State) : Host.Outcome State Fault Refusal :=
  .next (s.jump (zextAddr nnn))

/-- The check of a call: 15 return addresses are already held (R161, R253). -/
def State.callError (s : State) : Option CoreError :=
  if s.sp = 15 then some (.stackOverflow s.instrAddr) else none

/-- `CALL nnn` (R161). -/
def execCall (nnn : Addr12) (s : State) : Host.Outcome State Fault Refusal :=
  .next (s.guarded s.callError ((s.push s.pc).jump (zextAddr nnn)))

/-- The check of a return: no return address is held (R162, R252). -/
def State.retError (s : State) : Option CoreError :=
  if s.sp = 0 then some (.stackUnderflow s.instrAddr) else none

/-- `RET` (R162). -/
def execRet (s : State) : Host.Outcome State Fault Refusal :=
  .next (s.guarded s.retError (s.pop.jump s.top))

/-- `JP V0, nnn` (R163). -/
def execJpV0 (nnn : Addr12) (s : State) : Host.Outcome State Fault Refusal :=
  .next (s.jump (s.offsetTarget nnn))

/-- `SE Vx, nn` (R164). -/
def execSeImm (x : Nibble) (nn : Byte) (s : State) : Host.Outcome State Fault Refusal :=
  .next (s.skipIf (decide (s.reg x = nn)))

/-- `SNE Vx, nn` (R165). -/
def execSneImm (x : Nibble) (nn : Byte) (s : State) : Host.Outcome State Fault Refusal :=
  .next (s.skipIf (decide (s.reg x ≠ nn)))

/-- `SE Vx, Vy` (R166). -/
def execSeReg (x y : Nibble) (s : State) : Host.Outcome State Fault Refusal :=
  .next (s.skipIf (decide (s.reg x = s.reg y)))

/-- `SNE Vx, Vy` (R167). -/
def execSneReg (x y : Nibble) (s : State) : Host.Outcome State Fault Refusal :=
  .next (s.skipIf (decide (s.reg x ≠ s.reg y)))

/-- `SKP Vx` (R168). -/
def execSkp (x : Nibble) (s : State) : Host.Outcome State Fault Refusal :=
  .next (s.skipIf (s.key (s.regLow x)))

/-- `SKNP Vx` (R169). -/
def execSknp (x : Nibble) (s : State) : Host.Outcome State Fault Refusal :=
  .next (s.skipIf (!s.key (s.regLow x)))

/-- `LD Vx, K` (R170): the lowest pressed key, or the same instruction again next cycle. -/
def execLdVxK (x : Nibble) (s : State) : Host.Outcome State Fault Refusal :=
  match s.lowestKey with
  | some k => .next (s.setReg x (k.zeroExtend 8))
  | none => .next (s.jump s.instrAddr)

/-- `halt_batch` with `haltedThisTick <- true` (R34, R171): no further cycle in this tick. -/
def State.haltBatch (s : State) : State := { s with haltedThisTick := true, batchLeft := 0 }

/-- `EXIT` (R171). -/
def execExit (s : State) : Host.Outcome State Fault Refusal :=
  .next s.haltBatch

end Sys2Proof.Machine
end

