-- ==== Sys2Proof/Machine/IndexMemory.lean ====
section
/-! DEFINITION. The meanings of 41_index_memory.md: index register and memory instructions. -/

namespace Sys2Proof.Machine

open Sys2Proof

/-- `I <- w` (R24). -/
def State.setIndex (s : State) (w : Word) : State := { s with i := w }

/-- `LD I, nnn` (R140). -/
def execLdI (nnn : Addr12) (s : State) : Host.Outcome State Fault Refusal :=
  .next (s.setIndex (zextAddr nnn))

/-- `ADD I, Vx` (R141): modulo 65536, no flag. -/
def execAddIVx (x : Nibble) (s : State) : Host.Outcome State Fault Refusal :=
  .next (s.setIndex (s.i + zextByte (s.reg x)))

/-- `LD F, Vx` (R142). -/
def execLdFVx (x : Nibble) (s : State) : Host.Outcome State Fault Refusal :=
  .next (s.setIndex (glyphAddr (s.regLow x)))

/-- `LD B, Vx` (R143): hundreds, tens, units at I, I + 1, I + 2; I unchanged. -/
def execLdBVx (x : Nibble) (s : State) : Host.Outcome State Fault Refusal :=
  .next (s.guarded (s.storeError (s.indexAddrs 3))
    (s.storeCells ((s.indexAddrs 3).zip (bcdDigits (s.reg x)))))

/-- `LD [I], Vx` (R144): V0..Vx to memory at I, then I as the bulk-transfer quirk says. -/
def execLdMemVx (x : Nibble) (s : State) : Host.Outcome State Fault Refusal :=
  .next (s.guarded (s.storeError (s.indexAddrs (x.toNat + 1)))
    ((s.storeCells ((s.indexAddrs (x.toNat + 1)).zip (s.regsThrough x))).setIndex
      (s.indexAfterBulk x)))

/-- `LD Vx, [I]` (R145): V0..Vx from memory at I, then I as the bulk-transfer quirk says. -/
def execLdVxMem (x : Nibble) (s : State) : Host.Outcome State Fault Refusal :=
  .next (s.guarded (loadError (s.indexAddrs (x.toNat + 1)))
    ((s.setRegsFrom 0 (s.indexBytes (x.toNat + 1))).setIndex (s.indexAfterBulk x)))

end Sys2Proof.Machine
end

