-- ==== Sys2Proof/Machine/Display.lean ====
section
/-! DEFINITION. The raster engine's operations over the display buffer: pixels, the active region, the XOR sprite engine and the scrolls (10_state.md rules R27, R28; 44_raster.md). -/

namespace Sys2Proof.Machine

open Sys2Proof

/-! ## Pixels and the active region -/

/-- W, the active width of a mode (R28). -/
def Mode.width : Mode → Nat
  | .low => 64
  | .high => 128

/-- H, the active height of a mode (R28). -/
def Mode.height : Mode → Nat
  | .low => 32
  | .high => 64

/-- Row `row` of the buffer. -/
def Display.row (d : Display) (row : Nat) : BitVec 128 := d.getD row 0

/-- `disp[row][col]` (R27): `true` means the pixel is on. -/
def Display.pixel (d : Display) (row col : Nat) : Bool := (d.row row).getLsbD col

/-- `disp[row][col] <- not disp[row][col]`. -/
def Display.flip (d : Display) (row col : Nat) : Display :=
  d.setIfInBounds row (d.row row ^^^ BitVec.twoPow 128 col)

/-- Every pixel off. -/
def Display.blank : Display := Vector.replicate 64 0

/-- `disp[row][col]` of a state. -/
def State.pixel (s : State) (row col : Nat) : Bool := s.disp.pixel row col

/-- A raster instruction's buffer, with `dirty <- true` (R217). -/
def State.setDisp (s : State) (d : Display) : State := { s with disp := d, dirty := true }

/-- `mode <- m` with `dirty <- true` (R212, R213, R217). -/
def State.setMode (s : State) (m : Mode) : State := { s with mode := m, dirty := true }

/-! ## The sprite engine (R211) -/

/-- What a draw has done so far: the buffer, and whether an on pixel was turned off. -/
structure Canvas where
  disp : Display
  coll : Bool
  deriving DecidableEq, Repr

/-- Where a sprite pixel at column `px`, row `py` lands in a `w` × `h` region, as (row, column): dropped past
an edge when clipping, else wrapped (R211). -/
def spriteTarget (clip : Bool) (w h px py : Nat) : Option (Nat × Nat) :=
  if clip then
    if w ≤ px || h ≤ py then none else some (py, px)
  else some (py % h, px % w)

/-- One on bit of a sprite: the collision is noted and the pixel flipped (R211). -/
def Canvas.plot (k : Canvas) (row col : Nat) : Canvas :=
  { disp := k.disp.flip row col, coll := k.coll || k.disp.pixel row col }

/-- One bit of a sprite: a zero bit, or a bit with no place, changes nothing (R211). -/
def Canvas.drawBit (clip : Bool) (w h px py : Nat) (bit : Bool) (k : Canvas) : Canvas :=
  match bit, spriteTarget clip w h px py with
  | true, some (row, col) => k.plot row col
  | _, _ => k

/-- One byte of a sprite, its bit 7 at column `x0` (R211, D17). -/
def Canvas.drawByte (clip : Bool) (w h x0 py : Nat) (b : Byte) (k : Canvas) : Canvas :=
  (List.range 8).foldl
    (fun k c => k.drawBit clip w h (x0 + c) py (b.getLsbD (7 - c))) k

/-- The bytes of a sprite, one per row from row `py` down (R211). -/
def Canvas.drawBytes (clip : Bool) (w h x0 : Nat) : Nat → List Byte → Canvas → Canvas
  | _, [], k => k
  | py, b :: bs, k =>
    Canvas.drawBytes clip w h x0 (py + 1) bs (k.drawByte clip w h x0 py b)

/-- The draw of the sprite `bytes` at the coordinates `V[x] mod W`, `V[y] mod H` of a state (R211). -/
def State.drawSprite (s : State) (x y : Nibble) (bytes : List Byte) : Canvas :=
  Canvas.drawBytes s.quirk.clipsAtEdge s.mode.width s.mode.height
    ((s.reg x).toNat % s.mode.width) ((s.reg y).toNat % s.mode.height) bytes
    { disp := s.disp, coll := false }

/-! ## The scrolls (R214 to R216) -/

/-- The columns 0..w−1 of a row. -/
def activeColumns (w : Nat) : BitVec 128 := BitVec.allOnes 128 >>> (128 - w)

/-- A row with its columns 0..w−1 replaced by those of `new`, the rest kept. -/
def replaceActive (w : Nat) (old new : BitVec 128) : BitVec 128 :=
  (new &&& activeColumns w) ||| (old &&& ~~~ activeColumns w)

/-- The buffer with each row of the active region computed by `f`, the rows below it kept. -/
def Display.mapActive (d : Display) (m : Mode) (f : Nat → BitVec 128) : Display :=
  Vector.ofFn fun r : Fin 64 =>
    if r.val < m.height then replaceActive m.width (d.row r.val) (f r.val) else d.row r.val

/-- Scroll down by n rows: row r takes row r − n, the top n rows become off (R214). -/
def Display.scrollDown (d : Display) (m : Mode) (n : Nat) : Display :=
  d.mapActive m fun r => if n ≤ r then d.row (r - n) else 0

/-- Scroll right by four columns: column c takes column c − 4, columns 0..3 become off (R215). -/
def Display.scrollRight (d : Display) (m : Mode) : Display :=
  d.mapActive m fun r => d.row r <<< 4

/-- Scroll left by four columns: column c takes column c + 4 of the active region, its last four columns
become off (R216). -/
def Display.scrollLeft (d : Display) (m : Mode) : Display :=
  d.mapActive m fun r => (d.row r &&& activeColumns m.width) >>> 4

end Sys2Proof.Machine
end

