-- ==== Sys2Proof/Machine/Raster.lean ====
section
/-! DEFINITION. The meanings of 44_raster.md: the raster engine's instructions. Each sets `dirty` when it completes (R217). -/

namespace Sys2Proof.Machine

open Sys2Proof

/-- `CLS` (R210): the entire buffer, in either mode. -/
def execCls (s : State) : Host.Outcome State Fault Refusal :=
  .next (s.setDisp Display.blank)

/-- `DRW Vx, Vy, n` (R211): the sprite bytes are read and checked first, then drawn; VF last. -/
def execDrw (x y n : Nibble) (s : State) : Host.Outcome State Fault Refusal :=
  let canvas := s.drawSprite x y (s.indexBytes n.toNat)
  .next (s.guarded (loadError (s.indexAddrs n.toNat))
    ((s.setDisp canvas.disp).setFlag canvas.coll))

/-- `LOW` (R212): the buffer is not cleared. -/
def execLow (s : State) : Host.Outcome State Fault Refusal :=
  .next (s.setMode .low)

/-- `HIGH` (R213): the buffer is not cleared. -/
def execHigh (s : State) : Host.Outcome State Fault Refusal :=
  .next (s.setMode .high)

/-- `SCD n` (R214). -/
def execScd (n : Nibble) (s : State) : Host.Outcome State Fault Refusal :=
  .next (s.setDisp (s.disp.scrollDown s.mode n.toNat))

/-- `SCR` (R215). -/
def execScr (s : State) : Host.Outcome State Fault Refusal :=
  .next (s.setDisp (s.disp.scrollRight s.mode))

/-- `SCL` (R216). -/
def execScl (s : State) : Host.Outcome State Fault Refusal :=
  .next (s.setDisp (s.disp.scrollLeft s.mode))

end Sys2Proof.Machine
end

