-- ==== Sys2Proof/Machine/Tick.lean ====
section
/-! DEFINITION. The instruction cycle (30_encoding.md rule R75) and the tick controller (60_exceptions.md rules R262 to R267). -/

namespace Sys2Proof.Machine

open Sys2Proof

/-- A boundary between two ticks: no instruction cycle of a tick is left. The driving loop and its
collaborators move only here (R273). -/
def State.betweenTicks (s : State) : Bool := s.batchLeft == 0

/-- "each decremented once per tick while nonzero" (R263, R264). -/
def countDown (t : Byte) : Byte := if t = 0 then 0 else t - 1

/-- The signal of a tick: `Play` if ST was nonzero at the tick's start, else `Pause` (R37, R264). -/
def soundSignal (st : Byte) : Sound := if st = 0 then .pause else .play

/-- The start of a tick (R262), before its batch: `haltedThisTick` cleared, both timers counted down, one
sound signal, and a batch of `ipf × speed` cycles (R265). After an error it is also how the machine goes
on (R259). -/
def State.startTick (s : State) : State :=
  { s with
    haltedThisTick := false
    dt := countDown s.dt
    sound := some (soundSignal s.st)
    st := countDown s.st
    batchLeft := s.ipf * s.speed
    tickResult := none }

/-- The end of a tick: with no cycle of the batch left and no error taken, it returns `Ok` (R262, R266). -/
def State.endTick (s : State) : State :=
  if s.batchLeft = 0 ∧ s.tickResult = none then { s with tickResult := some .ok } else s

/-- One cycle of the batch counted: every one counts, also a key wait's retry and a failing one (R265). -/
def State.countCycle (s : State) : State := { s with batchLeft := s.batchLeft - 1 }

/-- The execute part of a cycle: the word is decoded and dispatched, or raises `DecodeError` with `pc`
already past it (R75, R78). -/
def State.execute (s : State) (op : Word) : Host.Outcome State Fault Refusal :=
  match decode s.variant s.config op with
  | .ok i => exec i s
  | .error _ => .next (s.raise (.decodeError op s.instrAddr))

/-- What follows the execute part of a cycle: the tick ends if this was its last cycle. -/
def afterExecute : Host.Outcome State Fault Refusal → Host.Outcome State Fault Refusal
  | .next s => .next s.endTick
  | .fault r => .fault r
  | .refused r => .refused r

/-- One instruction cycle (R75): the fetch, which may raise `AddressError` with `pc` unchanged (R256); the
advance of `pc`; the execute part. -/
def State.cycle (s : State) : Host.Outcome State Fault Refusal :=
  match s.fetchError with
  | some e => .next (s.countCycle.raise e)
  | none => afterExecute (s.countCycle.advancePc.execute s.fetchWord)

/-- The state at which the next cycle runs: between ticks, the driving loop calls `tick` (R262, R273). -/
def State.atCycle (s : State) : State := if s.betweenTicks then s.startTick else s

/-- One step of the machine: one instruction cycle (D1), the start of a tick before it when the machine
stands between ticks. A tick with a batch of 0 is a step of its own, which runs no instruction (R265). -/
def State.advance (s : State) : Host.Outcome State Fault Refusal :=
  if s.atCycle.betweenTicks then .next s.atCycle.endTick else s.atCycle.cycle

/-- `repeat n times` of R262, stopping at the end of the batch (R266, R267). -/
def State.runBatch : Nat → State → Host.Outcome State Fault Refusal
  | 0, s => .next s
  | n + 1, s =>
    match s.cycle with
    | .next t => if t.betweenTicks then .next t else State.runBatch n t
    | .fault r => .fault r
    | .refused r => .refused r

/-- The driving loop's arguments of a tick (R33). -/
def State.setTickArgs (s : State) (ipf speed : Nat) : State := { s with ipf := ipf, speed := speed }

/-- `Tick(ipf, speed)` whole (R262), for a state between ticks: the timers, then the batch. The result
stands in `tickResult`, the signal in `sound`. -/
def State.tick (s : State) (ipf speed : Nat) : Host.Outcome State Fault Refusal :=
  State.runBatch (ipf * speed) ((s.setTickArgs ipf speed).startTick.endTick)

end Sys2Proof.Machine
end

