-- ==== Sys2Proof/Machine/Driver.lean ====
section
/-! DEFINITION. The host's operations on the machine between ticks: program load and clear, the keypad, the renderer's clear of the dirty flag (70_reset_and_hazards.md rules R292 to R296; 60_exceptions.md rule R273). -/

namespace Sys2Proof.Machine

open Sys2Proof

/-- `MAX_PROGRAM_LEN` (R6, R293). -/
def maxProgramLen : Nat := memSize - programStart

/-- The bytes of a list at consecutive addresses from `a`. -/
def Memory.writeFrom (m : Memory) (glyphs : Glyphs) : Nat → List Byte → Memory
  | _, [] => m
  | a, b :: bs => (m.write glyphs a b).writeFrom glyphs (a + 1) bs

/-- `load(bytes)` (R292): the bytes at 0x200 upward, those past the first 3584 dropped (R293). -/
def State.load (s : State) (bytes : List Byte) : State :=
  { s with mem := s.mem.writeFrom s.config.fontTable programStart (bytes.take maxProgramLen) }

/-- `clear_program` (R295): zero at 0x200..0xFFF, which is what those addresses read as with no entry. -/
def State.clearProgram (s : State) : State :=
  { s with mem := s.mem.filter fun cell => decide (cell.1 < programStart) }

/-- The input collaborator writes `key[k]` (R30). -/
def State.writeKey (s : State) (k : Nibble) (pressed : Bool) : State :=
  { s with keys := s.keys.set k.toNat pressed k.isLt }

/-- The renderer clears `dirty` after a redraw (R29, R273). -/
def State.clearDirty (s : State) : State := { s with dirty := false }

/-- What the host does between ticks, other than calling `tick` (R273). -/
inductive DriverAction
  /-- The input collaborator writes a key state. -/
  | writeKey (k : Nibble) (pressed : Bool)
  /-- The renderer clears `dirty`. -/
  | clearDirty
  /-- The loader loads an image it has read. -/
  | load (bytes : List Byte)
  /-- The loader fails to read the image: an I/O error (R294). -/
  | loadFails
  /-- The CLI clears the program. -/
  | clearProgram
  deriving DecidableEq, Repr

/-- What a host operation answers. -/
inductive DriverReply
  /-- The operation was done. -/
  | done (s : State)
  /-- `LoadIOError`, code 6 (R294); the state is the one before. -/
  | loadIOError (s : State)
  /-- A tick is running: the host has no move (R273). -/
  | notBetweenTicks
  deriving DecidableEq, Repr

/-- The code of a host operation's error: 6 for `LoadIOError` (R294); the codes of a tick's errors are
`CoreError.code` (R250). -/
def DriverReply.code : DriverReply → Option Nat
  | .loadIOError _ => some 6
  | .done _ | .notBetweenTicks => none

/-- A host operation's effect on a state between ticks. -/
def State.apply (s : State) : DriverAction → DriverReply
  | .writeKey k pressed => .done (s.writeKey k pressed)
  | .clearDirty => .done s.clearDirty
  | .load bytes => .done (s.load bytes)
  | .loadFails => .loadIOError s
  | .clearProgram => .done s.clearProgram

/-- The host's move (R273): only between ticks. -/
def State.drive (s : State) (a : DriverAction) : DriverReply :=
  if s.betweenTicks then s.apply a else .notBetweenTicks

end Sys2Proof.Machine
end

