-- ==== Sys2Proof/Machine/Step.lean ====
section
/-! DEFINITION. The step of the machine, and how an instruction is placed where the next step fetches it. -/

namespace Sys2Proof.Machine

open Sys2Proof

/-- One step: one instruction cycle (30_encoding.md rule R75) under the tick controller. -/
def step (s : State) : Host.Outcome State Fault Refusal := s.advance

/-- A state with an instruction word stored where `step` fetches next: its high byte at `pc`, its low byte
at `pc + 1` (R56). Two things more are set where the next step would otherwise fetch nothing: a `pc` with no
word in memory becomes 0x200, and a machine whose next tick has a batch of 0 is put into a tick with one
cycle left (assumption log 5). The store is the loader's, not an instruction's: no font policy applies. -/
def State.withFetchWord (s : State) (_nbits w : Nat) : State :=
  let op : Word := BitVec.ofNat 16 w
  let pc : Word := if s.fetchError = none then s.pc else 0x200
  let noCycle := s.betweenTicks && s.ipf * s.speed == 0
  { s with
    pc := pc
    mem := ((s.setByte pc.toNat (highByte op)).setByte (pc.toNat + 1) (lowByte op)).mem
    batchLeft := if noCycle then 1 else s.batchLeft
    tickResult := if noCycle then none else s.tickResult }

end Sys2Proof.Machine
end

