-- ==== Sys2Proof/Machine/Assembly.lean ====
section
/-! DEFINITION. The assembler notation of 30_encoding.md rule R81: how an instruction is spelled, and the word an assembler maps a spelling to. The machine does not use it. -/

namespace Sys2Proof.Machine

open Sys2Proof

/-- The mnemonics of R76. -/
inductive Mnemonic
  | CLS | RET | SCD | SCR | SCL | EXIT | LOW | HIGH | JP | CALL | SE | SNE | LD | ADD | OR | AND
  | XOR | SUB | SHR | SUBN | SHL | RND | DRW | SKP | SKNP
  deriving DecidableEq, Repr

/-- An operand as it is spelled (R81). -/
inductive AsmOperand
  /-- `Vx`, a register written `V0`..`VF`. -/
  | reg (x : Nibble)
  /-- `nn`, `nnn` or `n`, a hexadecimal number written `0x..`. -/
  | num (n : Nat)
  /-- The literal operand keywords. -/
  | I | DT | ST | K | F | B | atI
  deriving DecidableEq, Repr

/-- "the mnemonic, then operands" (R81). -/
structure AsmLine where
  mnemonic : Mnemonic
  operands : List AsmOperand
  deriving DecidableEq, Repr

/-- The spelling of an instruction: the mnemonic column of R76. -/
def spell : Instr → AsmLine
  | .cls => ⟨.CLS, []⟩
  | .ret => ⟨.RET, []⟩
  | .scd n => ⟨.SCD, [.num n.toNat]⟩
  | .scr => ⟨.SCR, []⟩
  | .scl => ⟨.SCL, []⟩
  | .exit => ⟨.EXIT, []⟩
  | .low => ⟨.LOW, []⟩
  | .high => ⟨.HIGH, []⟩
  | .jp nnn => ⟨.JP, [.num nnn.toNat]⟩
  | .call nnn => ⟨.CALL, [.num nnn.toNat]⟩
  | .seImm x nn => ⟨.SE, [.reg x, .num nn.toNat]⟩
  | .sneImm x nn => ⟨.SNE, [.reg x, .num nn.toNat]⟩
  | .seReg x y => ⟨.SE, [.reg x, .reg y]⟩
  | .ldImm x nn => ⟨.LD, [.reg x, .num nn.toNat]⟩
  | .addImm x nn => ⟨.ADD, [.reg x, .num nn.toNat]⟩
  | .ldReg x y => ⟨.LD, [.reg x, .reg y]⟩
  | .or x y => ⟨.OR, [.reg x, .reg y]⟩
  | .and x y => ⟨.AND, [.reg x, .reg y]⟩
  | .xor x y => ⟨.XOR, [.reg x, .reg y]⟩
  | .addReg x y => ⟨.ADD, [.reg x, .reg y]⟩
  | .sub x y => ⟨.SUB, [.reg x, .reg y]⟩
  | .shr x y => ⟨.SHR, [.reg x, .reg y]⟩
  | .subn x y => ⟨.SUBN, [.reg x, .reg y]⟩
  | .shl x y => ⟨.SHL, [.reg x, .reg y]⟩
  | .sneReg x y => ⟨.SNE, [.reg x, .reg y]⟩
  | .ldI nnn => ⟨.LD, [.I, .num nnn.toNat]⟩
  | .jpV0 nnn => ⟨.JP, [.reg 0, .num nnn.toNat]⟩
  | .rnd x nn => ⟨.RND, [.reg x, .num nn.toNat]⟩
  | .drw x y n => ⟨.DRW, [.reg x, .reg y, .num n.toNat]⟩
  | .skp x => ⟨.SKP, [.reg x]⟩
  | .sknp x => ⟨.SKNP, [.reg x]⟩
  | .ldVxDt x => ⟨.LD, [.reg x, .DT]⟩
  | .ldVxK x => ⟨.LD, [.reg x, .K]⟩
  | .ldDtVx x => ⟨.LD, [.DT, .reg x]⟩
  | .ldStVx x => ⟨.LD, [.ST, .reg x]⟩
  | .addIVx x => ⟨.ADD, [.I, .reg x]⟩
  | .ldFVx x => ⟨.LD, [.F, .reg x]⟩
  | .ldBVx x => ⟨.LD, [.B, .reg x]⟩
  | .ldMemVx x => ⟨.LD, [.atI, .reg x]⟩
  | .ldVxMem x => ⟨.LD, [.reg x, .atI]⟩

/-- A number as a field of `w` bits, if it fits. -/
def field (w n : Nat) : Option (BitVec w) := if n < 2 ^ w then some (BitVec.ofNat w n) else none

/-- The spellings of `LD`. -/
def parseLd : List AsmOperand → Option Instr
  | [.reg x, .num n] => (field 8 n).map (.ldImm x)
  | [.reg x, .reg y] => some (.ldReg x y)
  | [.I, .num n] => (field 12 n).map .ldI
  | [.reg x, .DT] => some (.ldVxDt x)
  | [.reg x, .K] => some (.ldVxK x)
  | [.DT, .reg x] => some (.ldDtVx x)
  | [.ST, .reg x] => some (.ldStVx x)
  | [.F, .reg x] => some (.ldFVx x)
  | [.B, .reg x] => some (.ldBVx x)
  | [.atI, .reg x] => some (.ldMemVx x)
  | [.reg x, .atI] => some (.ldVxMem x)
  | _ => none

/-- The spellings without operands. -/
def parsePlain : Mnemonic → Option Instr
  | .CLS => some .cls
  | .RET => some .ret
  | .SCR => some .scr
  | .SCL => some .scl
  | .EXIT => some .exit
  | .LOW => some .low
  | .HIGH => some .high
  | _ => none

/-- The instruction a spelling stands for; none for what is no spelling, or for a number too large for its
field. There are no pseudo-instructions (R81). -/
def parse (l : AsmLine) : Option Instr :=
  match l.mnemonic, l.operands with
  | m, [] => parsePlain m
  | .LD, os => parseLd os
  | .SCD, [.num n] => (field 4 n).map .scd
  | .JP, [.num n] => (field 12 n).map .jp
  | .JP, [.reg x, .num n] => if x = 0 then (field 12 n).map .jpV0 else none
  | .CALL, [.num n] => (field 12 n).map .call
  | .SE, [.reg x, .num n] => (field 8 n).map (.seImm x)
  | .SE, [.reg x, .reg y] => some (.seReg x y)
  | .SNE, [.reg x, .num n] => (field 8 n).map (.sneImm x)
  | .SNE, [.reg x, .reg y] => some (.sneReg x y)
  | .ADD, [.reg x, .num n] => (field 8 n).map (.addImm x)
  | .ADD, [.reg x, .reg y] => some (.addReg x y)
  | .ADD, [.I, .reg x] => some (.addIVx x)
  | .OR, [.reg x, .reg y] => some (.or x y)
  | .AND, [.reg x, .reg y] => some (.and x y)
  | .XOR, [.reg x, .reg y] => some (.xor x y)
  | .SUB, [.reg x, .reg y] => some (.sub x y)
  | .SHR, [.reg x, .reg y] => some (.shr x y)
  | .SUBN, [.reg x, .reg y] => some (.subn x y)
  | .SHL, [.reg x, .reg y] => some (.shl x y)
  | .RND, [.reg x, .num n] => (field 8 n).map (.rnd x)
  | .DRW, [.reg x, .reg y, .num n] => (field 4 n).map (.drw x y)
  | .SKP, [.reg x] => some (.skp x)
  | .SKNP, [.reg x] => some (.sknp x)
  | _, _ => none

/-- The assembler: "maps each spelling to the word of rule R76 by placing the operands in the fields". -/
def assemble (l : AsmLine) : Option Word := (parse l).map encode

end Sys2Proof.Machine
end

