-- ==== Sys2Proof/Safety.lean ====
section
/-! DEFINITION. What counts as a good state and a good run, in the terms claims use: the invariant of the machine, and the three ends of a run (60_exceptions.md rule R274). -/

namespace Sys2Proof.Machine

open Sys2Proof

/-- The invariant every step keeps. -/
structure State.Inv (s : State) : Prop where
  /-- Memory is in canonical form, so every entry lies in 0x000..0xFFF (R50). -/
  mem_wf : s.mem.wf s.config.fontTable = true
  /-- The font, whatever `FONT_TABLE` is, is "immutable" (R51, R55) unless the policy is `Write`. -/
  font_kept : s.config.fontRegionWrite ≠ .write →
    ∀ a : Nat, a < fontEnd → s.byteAt a = Memory.background s.config.fontTable a
  /-- In Baseline the mode "therefore stays `Low`" (R28). -/
  baseline_low : s.variant = .baseline → s.config.extendedOpcodesInBaseline = false →
    s.mode = .low
  /-- Inside a tick no result stands, the halt sentinel has not run (R34), and the tick's sound signal has
  been given (R264). -/
  in_tick : s.batchLeft ≠ 0 →
    s.tickResult = none ∧ s.haltedThisTick = false ∧ s.sound ≠ none
  /-- A tick that the halt sentinel ended returned `Ok` (R266). -/
  halted_ok : s.haltedThisTick = true → s.tickResult = some .ok
  /-- Every error a tick returned is in the sticky record (R274). -/
  error_recorded : ∀ e : CoreError, s.tickResult = some (.error e) → e ∈ s.faultLog

/-- "No fault recorded" (R274): the premise a claim about a good run states. -/
def State.noFault (s : State) : Prop := s.faultLog = []

/-- The raster instructions: those of 44_raster.md (R217). -/
def rasterInstr : Instr → Bool
  | .cls | .drw _ _ _ | .low | .high | .scd _ | .scr | .scl => true
  | .ret | .exit | .jp _ | .call _ | .seImm _ _ | .sneImm _ _ | .seReg _ _ | .ldImm _ _
  | .addImm _ _ | .ldReg _ _ | .or _ _ | .and _ _ | .xor _ _ | .addReg _ _ | .sub _ _ | .shr _ _
  | .subn _ _ | .shl _ _ | .sneReg _ _ | .ldI _ | .jpV0 _ | .rnd _ _ | .skp _ | .sknp _
  | .ldVxDt _ | .ldVxK _ | .ldDtVx _ | .ldStVx _ | .addIVx _ | .ldFVx _ | .ldBVx _ | .ldMemVx _
  | .ldVxMem _ => false

/-! ## Runs (R274): construction, one load, then ticks chosen by the host -/

/-- One turn of the host: what its collaborators do between two ticks, and the arguments of the next. -/
structure HostTurn where
  actions : List DriverAction
  ipf     : Nat
  speed   : Nat
  deriving DecidableEq, Repr

/-- A list of host moves, in order; a failed load leaves the state as it is (R294). -/
def State.driveAll : State → List DriverAction → State
  | s, [] => s
  | s, a :: rest =>
    match s.drive a with
    | .done t => t.driveAll rest
    | .loadIOError t => t.driveAll rest
    | .notBetweenTicks => s

/-- The state a run starts from (R274, R296): constructed, then loaded. -/
def launch (variant : Variant) (config : Config) (image : List Byte) : State :=
  (State.construct variant config).load image

/-- A sequence of turns, each ending with a whole tick. -/
def State.runTurns : State → List HostTurn → Host.Outcome State Fault Refusal
  | s, [] => .next s
  | s, turn :: rest =>
    match (s.driveAll turn.actions).tick turn.ipf turn.speed with
    | .next t => t.runTurns rest
    | .fault r => .fault r
    | .refused r => .refused r

/-- **Halted**: the last tick returned `Ok` because 0x00FD ended its batch. -/
def State.endsHalted (s : State) : Prop :=
  s.betweenTicks = true ∧ s.tickResult = some .ok ∧ s.haltedThisTick = true

/-- **Faulted**: a tick of the run returned an error, which no later step forgets. -/
def State.endsFaulted (s : State) : Prop :=
  s.betweenTicks = true ∧ ¬ s.noFault

/-- **Budget**: the tick that used up the claim's number of ticks returned `Ok`. -/
def State.endsBudget (s : State) : Prop :=
  s.betweenTicks = true ∧ s.tickResult = some .ok

/-- A successful end: halted or at the budget, with no fault recorded ("A faulted run is never a successful
end, even if the host resumes it"). -/
def State.endsWell (s : State) : Prop :=
  s.noFault ∧ (s.endsHalted ∨ s.endsBudget)

end Sys2Proof.Machine
end

