-- ==== Sys2Proof/Certificates/Slice0/Obligations.lean ====
section
/-! DEFINITION. The statements for the provers, from the numbered rules of spec/. First the frames they use: what one instruction leaves as it was. -/

namespace Sys2Proof.Machine

open Sys2Proof

/-! ## Frames: `s` is the state before, `t` the state after -/

/-- Every byte of memory reads as before. -/
def sameMemory (s t : State) : Prop := ∀ a : Nat, t.byteAt a = s.byteAt a

/-- Every byte of memory outside the listed addresses reads as before. -/
def sameMemoryOutside (s t : State) (stored : List Word) : Prop :=
  ∀ a : Nat, (∀ w ∈ stored, w.toNat ≠ a) → t.byteAt a = s.byteAt a

/-- Every general register, VF among them, is as before. -/
def sameRegs (s t : State) : Prop := ∀ r : Nibble, t.reg r = s.reg r

/-- Every general register but `x` is as before. -/
def sameRegsBut (x : Nibble) (s t : State) : Prop := ∀ r : Nibble, r ≠ x → t.reg r = s.reg r

/-- Every general register but `x` and the flag register is as before. -/
def sameRegsButFlag (x : Nibble) (s t : State) : Prop :=
  ∀ r : Nibble, r ≠ x → r ≠ 0xF → t.reg r = s.reg r

/-- The return stack is as before, all 16 slots and SP. -/
def sameStack (s t : State) : Prop := t.stack = s.stack ∧ t.sp = s.sp

/-- DT and ST are as before. -/
def sameTimers (s t : State) : Prop := t.dt = s.dt ∧ t.st = s.st

/-- The display buffer is as before. -/
def samePixels (s t : State) : Prop := ∀ row col : Nat, t.pixel row col = s.pixel row col

/-- The display buffer, the rendering mode and the dirty flag are as before. -/
def sameScreen (s t : State) : Prop := samePixels s t ∧ t.mode = s.mode ∧ t.dirty = s.dirty

/-- What only the host or construction sets is as before: keys, variant, parameters, tick arguments. -/
def sameSetup (s t : State) : Prop :=
  t.keys = s.keys ∧ t.variant = s.variant ∧ t.config = s.config ∧ t.ipf = s.ipf ∧ t.speed = s.speed

/-- The tick controller's state and the record of errors are as before: no error was taken and the batch
was not ended. -/
def sameTick (s t : State) : Prop :=
  t.haltedThisTick = s.haltedThisTick ∧ t.sound = s.sound ∧ t.batchLeft = s.batchLeft ∧
    t.tickResult = s.tickResult ∧ t.faultLog = s.faultLog

/-- Everything but registers, `pc`, I, memory, stack, timers and screen is as before. -/
def sameRest (s t : State) : Prop := sameSetup s t ∧ sameTick s t ∧ t.rngDraws = s.rngDraws

/-- Everything but the general registers is as before. -/
def onlyRegs (s t : State) : Prop :=
  t.pc = s.pc ∧ t.i = s.i ∧ sameMemory s t ∧ sameStack s t ∧ sameTimers s t ∧ sameScreen s t ∧
    sameRest s t

/-- Everything but `pc` is as before. -/
def onlyPc (s t : State) : Prop :=
  sameRegs s t ∧ t.i = s.i ∧ sameMemory s t ∧ sameStack s t ∧ sameTimers s t ∧ sameScreen s t ∧
    sameRest s t

/-- Everything but I is as before. -/
def onlyIndex (s t : State) : Prop :=
  sameRegs s t ∧ t.pc = s.pc ∧ sameMemory s t ∧ sameStack s t ∧ sameTimers s t ∧ sameScreen s t ∧
    sameRest s t

/-- Everything but the display buffer, the rendering mode, the dirty flag and the registers is as before. -/
def onlyScreenAndRegs (s t : State) : Prop :=
  t.pc = s.pc ∧ t.i = s.i ∧ sameMemory s t ∧ sameStack s t ∧ sameTimers s t ∧ sameRest s t

/-- The machine took the error `e` and did nothing else: the tick is over with that result, the record has
the error, and all else is as before (R256, R258). -/
def tookError (s t : State) (e : CoreError) : Prop :=
  t.tickResult = some (.error e) ∧ t.batchLeft = 0 ∧ t.faultLog = e :: s.faultLog ∧
    sameRegs s t ∧ t.pc = s.pc ∧ t.i = s.i ∧ sameMemory s t ∧ sameStack s t ∧ sameTimers s t ∧
    sameScreen s t ∧ sameSetup s t ∧ t.haltedThisTick = s.haltedThisTick ∧ t.sound = s.sound ∧
    t.rngDraws = s.rngDraws

/-- The state after a cycle whose instruction left `u`: the tick's result is `Ok` if no cycle is left and no
result stands (R262, R266), and all else is as in `u`. -/
def tickEnded (u : State) : State :=
  { u with
    tickResult := if u.batchLeft = 0 ∧ u.tickResult = none then some .ok else u.tickResult }

/-- The word stands for the instruction in every variant that has it. The word values other than 0x00FD,
0x6XNN, 0x8XY4 and nibble C are the spec's own supply from general knowledge (GK5, log 12). -/
def stands (w : Word) (i : Instr) : Prop :=
  ∀ (v : Variant) (c : Config), i.wellFormed v c = true → decode v c w = .ok i

/-- The flag VF as a byte. -/
def isFlag (b : Byte) (p : Prop) : Prop := (p → b = 1) ∧ (¬ p → b = 0)

/-- An address of an access lies inside memory (R53). -/
def inMemory (a : Word) : Prop := a.toNat < 0x1000

/-- The sprite of 0xDXYN covers the pixel (row, col): some on bit of the `n` bytes at I lands there, the
start wrapped into the active region, the rest clipped (Baseline, Extended) or wrapped (ExtendedAlt) (R211). -/
def spriteCovers (s : State) (x y n : Nibble) (row col : Nat) : Prop :=
  ∃ r c : Nat, r < n.toNat ∧ c < 8 ∧
    (s.memRead (s.i + BitVec.ofNat 16 r)).getLsbD (7 - c) = true ∧
    ((s.variant ≠ .extendedAlt ∧
        (s.reg x).toNat % s.mode.width + c = col ∧ (s.reg y).toNat % s.mode.height + r = row ∧
        col < s.mode.width ∧ row < s.mode.height) ∨
      (s.variant = .extendedAlt ∧
        ((s.reg x).toNat % s.mode.width + c) % s.mode.width = col ∧
        ((s.reg y).toNat % s.mode.height + r) % s.mode.height = row))

end Sys2Proof.Machine

open Sys2Proof Sys2Proof.Machine

/-! ## Encoding (30_encoding.md) -/

/-- R72: field extraction is lossless. -/
def Obligations.FieldExtractionIsLossless : Prop :=
  ∀ op : Word,
    wordXYN (fieldP op) (fieldX op) (fieldY op) (fieldN op) = op ∧
    wordNNN (fieldP op) (fieldNNN op) = op ∧
    wordXNN (fieldP op) (fieldX op) (fieldNN op) = op

/-- R71, R73, R76, with the gating of the spec's decision D7 (log 12, 20): the decoder gives back every
well-formed instruction from its word and from its bytes, whatever follows them. -/
def Obligations.DecodeOfEncodeIsTheInstruction : Prop :=
  ∀ (v : Variant) (c : Config) (i : Instr) (rest : List Byte), i.wellFormed v c = true →
    decode v c (encode i) = .ok i ∧ decodeBytes v c (encodeBytes i ++ rest) = .ok (i, rest)

/-- R76, R78: a word decodes exactly when it is the word of a well-formed instruction, and then to the one
instruction whose word it is; every other word is rejected (the spec's decisions D7, D8, log 20). Most of the
words are its general knowledge (log 12). -/
def Obligations.AWordHasAtMostOneInstruction : Prop :=
  ∀ (v : Variant) (c : Config) (op : Word),
    (∀ i : Instr, decode v c op = .ok i ↔ (i.wellFormed v c = true ∧ encode i = op)) ∧
    ((∀ i : Instr, decode v c op ≠ .ok i) ↔
      ∀ i : Instr, i.wellFormed v c = true → encode i ≠ op)

/-- R77: the superset words are rejected in Baseline (with `EXTENDED_OPCODES_IN_BASELINE` false) and decode in
Extended and ExtendedAlt; every other word decodes the same way in every variant (the spec's decision
D7, log 20). -/
def Obligations.VariantsGateOnlyTheSupersetWords : Prop :=
  ∀ (c : Config) (op : Word),
    (c.extendedOpcodesInBaseline = false →
      ((∃ n : Nibble, op = wordXYN 0x0 0x0 0xC n) ∨
        op = 0x00FB ∨ op = 0x00FC ∨ op = 0x00FE ∨ op = 0x00FF) →
      decode .baseline c op = .error (.notInVariant op) ∧
      ∃ i : Instr, decode .extended c op = .ok i ∧ decode .extendedAlt c op = .ok i) ∧
    (¬ ((∃ n : Nibble, op = wordXYN 0x0 0x0 0xC n) ∨
        op = 0x00FB ∨ op = 0x00FC ∨ op = 0x00FE ∨ op = 0x00FF) →
      decode .baseline c op = decode .extended c op ∧
      decode .baseline c op = decode .extendedAlt c op)

/-- R76: words written out from the opcode map, one of each family (sanity). All but 0x6A02, 0x8AB4 and 0x00FD
are the spec's general knowledge (log 12). -/
def Obligations.ListedWordsDecode : Prop :=
  stands 0x6A02 (.ldImm 0xA 0x02) ∧ stands 0x8AB4 (.addReg 0xA 0xB) ∧ stands 0xA2F0 (.ldI 0x2F0) ∧
  stands 0xF133 (.ldBVx 0x1) ∧ stands 0x2300 (.call 0x300) ∧ stands 0x00EE .ret ∧
  stands 0x00FD .exit ∧ stands 0xE19E (.skp 0x1) ∧ stands 0xF115 (.ldDtVx 0x1) ∧
  stands 0xD015 (.drw 0x0 0x1 0x5) ∧ stands 0x00C4 (.scd 0x4)

/-- R81: an assembler maps the spelling of an instruction to its word, and no other spelling to that word, so
there are no pseudo-instructions (the notation is the spec's decision D26, log 25). -/
def Obligations.AssemblyMapsEachSpellingToItsWord : Prop :=
  ∀ (i : Instr) (l : AsmLine), assemble (spell i) = some (encode i) ∧
    (assemble l = some (encode i) → l = spell i)

/-! ## The instruction cycle (R75, R78, R251, R254, R256) -/

/-- R75: inside a tick, with both bytes of the word in memory and decoding to `i`, a step is `exec i` at the
state with `pc` past the word and one cycle of the batch counted; then, if no cycle is left and the instruction
left the tick's result open, the tick ends with `Ok` (R266), and nothing else changes. Between ticks, with a
batch to run, the same from the started tick: that such a step starts the tick and runs its first cycle is the
model's choice (log 7). -/
def Obligations.StepRunsTheDecodedInstruction : Prop :=
  ∀ (s : State) (i : Instr),
    s.pc.toNat ≤ 0x0FFE →
    decode s.variant s.config
      (wordOfBytes (s.byteAt s.pc.toNat) (s.byteAt (s.pc.toNat + 1))) = .ok i →
    (s.batchLeft ≠ 0 →
      ∃ u : State, exec i { s with pc := s.pc + 2, batchLeft := s.batchLeft - 1 } = .next u ∧
        step s = .next (tickEnded u)) ∧
    (s.batchLeft = 0 → s.ipf * s.speed ≠ 0 →
      ∃ u : State,
        exec i { s.startTick with pc := s.pc + 2, batchLeft := s.ipf * s.speed - 1 } = .next u ∧
        step s = .next (tickEnded u))

/-- R78, R251: a word that is no instruction raises `DecodeError` with the word and its address, `pc` already
past it, nothing else changed (what an error leaves is the spec's decision D19, log 6). -/
def Obligations.DecodeErrorLeavesPcAdvanced : Prop :=
  ∀ (s : State) (op : Word),
    s.batchLeft ≠ 0 → s.pc.toNat ≤ 0x0FFE →
    op = wordOfBytes (s.byteAt s.pc.toNat) (s.byteAt (s.pc.toNat + 1)) →
    (∀ i : Instr, i.wellFormed s.variant s.config = true → encode i ≠ op) →
    ∃ t : State, step s = .next t ∧
      tookError { s with pc := s.pc + 2 } t (.decodeError op s.pc)

/-- R75, R254, R256: a fetch whose bytes are not both below 0x1000 raises `AddressError`, the address being
`pc` when it is past memory and else `pc + 1`; `pc` stays (the spec's decisions D4, D19, log 6, 18). -/
def Obligations.FetchErrorLeavesPcUnchanged : Prop :=
  ∀ s : State, s.batchLeft ≠ 0 → 0x0FFE < s.pc.toNat →
    ∃ t : State, step s = .next t ∧
      tookError s t (.addressError (if 0x0FFF < s.pc.toNat then s.pc else s.pc + 1))

/-- R274: the core has no terminal state; in every state a step answers a next state, and so does every
instruction (errors are next states: log 6). -/
def Obligations.NothingStopsTheMachine : Prop :=
  (∀ s : State, ∃ t : State, step s = .next t) ∧
  (∀ (i : Instr) (s : State), ∃ t : State, exec i s = .next t)

/-- R256: errors are precise. An instruction that takes an error has made none of its own writes (the
spec's decision D19, log 6). -/
def Obligations.ErrorsArePrecise : Prop :=
  ∀ (i : Instr) (s t : State) (e : CoreError),
    s.tickResult = none → exec i s = .next t → t.tickResult = some (.error e) → tookError s t e

/-! ## The tick controller (R262 to R267) -/

/-- R262 to R265: a step between ticks first starts the tick: `haltedThisTick` cleared, each nonzero timer
counted down, one sound signal by ST before it, and a batch of `ipf × speed` cycles. With a batch of 0 it
runs no instruction, and the tick returns `Ok`; else the step is the first cycle of that batch. That a step
starts the tick is the model's (log 7). -/
def Obligations.TickStartCountsTheTimers : Prop :=
  ∀ s : State, s.batchLeft = 0 →
    ∃ u : State,
      u.haltedThisTick = false ∧
      u.dt = (if s.dt = 0 then 0 else s.dt - 1) ∧ u.st = (if s.st = 0 then 0 else s.st - 1) ∧
      u.sound = some (if s.st = 0 then .pause else .play) ∧
      u.batchLeft = s.ipf * s.speed ∧ u.tickResult = none ∧ u.faultLog = s.faultLog ∧
      u.pc = s.pc ∧ sameRegs s u ∧ u.i = s.i ∧ sameMemory s u ∧ sameStack s u ∧ sameScreen s u ∧
      sameSetup s u ∧ u.rngDraws = s.rngDraws ∧
      (s.ipf * s.speed ≠ 0 → step s = step u) ∧
      (s.ipf * s.speed = 0 → step s = .next { u with tickResult := some .ok })

/-- R262 as a whole: from a state between ticks, the tick with arguments `ipf` and `speed` is a run of steps
of the machine, at least one and at most `ipf × speed` of them (one for a batch of 0), at whose end the
machine is between ticks again with a result, and before whose end it is not (steps and ticks: log 7). -/
def Obligations.ATickIsARunOfSteps : Prop :=
  ∀ (s : State) (ipf speed : Nat), s.batchLeft = 0 →
    ∃ (t : State) (k : Nat), s.tick ipf speed = .next t ∧ 1 ≤ k ∧ k ≤ max 1 (ipf * speed) ∧
      Sys2Proof.core.run k (s.setTickArgs ipf speed) = .next t ∧
      t.batchLeft = 0 ∧ t.tickResult ≠ none ∧
      ∀ j : Nat, 1 ≤ j → j < k →
        ∃ u : State, Sys2Proof.core.run j (s.setTickArgs ipf speed) = .next u ∧ u.batchLeft ≠ 0

/-- R266, R267: a tick returns `Ok`, adding nothing to the record of errors, or it returns `Error(e)`, `e` being the
one error it adds to the model's record (log 6). -/
def Obligations.ATickAddsAtMostOneError : Prop :=
  ∀ (s t : State) (ipf speed : Nat), s.batchLeft = 0 → s.tick ipf speed = .next t →
    (t.tickResult = some .ok ∧ t.faultLog = s.faultLog) ∨
    ∃ e : CoreError, t.tickResult = some (.error e) ∧ t.faultLog = e :: s.faultLog

/-! ## Invariants -/

/-- The invariant holds after construction, whatever the variant and the parameters. It is the one of
`Obligations.StepKeepsTheInvariant` (log 6, 7, 8, 19, 20); the values it starts from are the spec's decision
D2 (log 1). -/
def Obligations.InvariantHoldsAtReset : Prop :=
  State.reset.Inv ∧ ∀ (v : Variant) (c : Config), (State.construct v c).Inv

/-- Every step keeps the invariant: canonical memory, the immutable font, Baseline in Low mode, and the tick
controller's flags. That stores leave the font alone and that Baseline has no mode switch are the spec's
decisions D5, D7 (log 19, 20); the canonical form and the flags are the model's (log 6, 7, 8). -/
def Obligations.StepKeepsTheInvariant : Prop :=
  ∀ s t : State, s.Inv → step s = .next t → t.Inv

/-- Every host operation keeps the invariant. It is the one of `Obligations.StepKeepsTheInvariant` (log 6, 7,
8, 19, 20). -/
def Obligations.HostMovesKeepTheInvariant : Prop :=
  ∀ (s t : State) (a : DriverAction), s.Inv → s.drive a = .done t → t.Inv

/-- R50 (the state is plain data): under one font, two canonical memories that read alike are the same memory
(the form is the model's, log 8). -/
def Obligations.CanonicalMemoriesThatReadAlikeAreEqual : Prop :=
  ∀ (glyphs : Glyphs) (m m' : Memory), m.wf glyphs = true → m'.wf glyphs = true →
    (∀ a : Nat, m.read glyphs a = m'.read glyphs a) → m = m'

/-- R31, R30, R2: no step writes the variant, the parameters, the key states or the arguments of a tick. -/
def Obligations.NoStepWritesSetup : Prop :=
  ∀ s t : State, step s = .next t → sameSetup s t

/-- R25, D3 (log 24): slot `stack[15]` is never written, and `stack` and SP are changed by CALL and RET only. -/
def Obligations.OnlyCallAndReturnTouchTheStack : Prop :=
  ∀ (i : Instr) (s t : State), exec i s = .next t →
    t.stack[15] = s.stack[15] ∧ ((∀ nnn : Addr12, i ≠ .call nnn) → t.stack = s.stack) ∧
    ((∀ nnn : Addr12, i ≠ .call nnn) → i ≠ .ret → t.sp = s.sp)

/-- R274, D19 (log 6): the record of errors is sticky, and a step adds exactly the error its tick returns, if any. -/
def Obligations.TheFaultRecordIsSticky : Prop :=
  ∀ s t : State, (s.batchLeft ≠ 0 → s.tickResult = none) → step s = .next t →
    (t.faultLog = s.faultLog ∧ ∀ e : CoreError, t.tickResult ≠ some (.error e)) ∨
    ∃ e : CoreError, t.faultLog = e :: s.faultLog ∧ t.tickResult = some (.error e)

/-- R217, R29: every raster instruction sets the dirty flag when it completes; no other instruction changes it,
the buffer or the mode, and none clears it (the spec's decision D16, log 17). -/
def Obligations.OnlyRasterInstructionsMarkDirty : Prop :=
  ∀ (i : Instr) (s t : State), exec i s = .next t →
    (rasterInstr i = true → t.faultLog = s.faultLog → t.dirty = true) ∧
    (rasterInstr i = false → sameScreen s t) ∧
    (s.dirty = true → t.dirty = true)

/-- R58, R28, R24, R26: which instructions write memory, the mode, I and the timers. -/
def Obligations.WritersOfMemoryModeIndexAndTimers : Prop :=
  ∀ (i : Instr) (s t : State), exec i s = .next t →
    ((∀ x : Nibble, i ≠ .ldBVx x ∧ i ≠ .ldMemVx x) → t.mem = s.mem) ∧
    (i ≠ .low → i ≠ .high → t.mode = s.mode) ∧
    ((∀ (x : Nibble) (nnn : Addr12), i ≠ .ldI nnn ∧ i ≠ .addIVx x ∧ i ≠ .ldFVx x ∧
        (s.variant = .baseline → i ≠ .ldMemVx x ∧ i ≠ .ldVxMem x)) → t.i = s.i) ∧
    ((∀ x : Nibble, i ≠ .ldDtVx x) → t.dt = s.dt) ∧
    ((∀ x : Nibble, i ≠ .ldStVx x) → t.st = s.st)

/-- R55, R51: unless the policy is `Write`, no instruction changes a byte of the font region (D5, log 19). -/
def Obligations.NoInstructionWritesTheFont : Prop :=
  ∀ (i : Instr) (s t : State), s.config.fontRegionWrite ≠ .write → exec i s = .next t →
    ∀ a : Nat, a ≤ 0x04F → t.byteAt a = s.byteAt a

/-! ## Register and arithmetic instructions (40_alu.md) -/

/-- R101 to R104: immediate load, immediate add, register copy. No flag effect. The document does not describe
8XY0: its presence and meaning are the spec's general knowledge (log 12). -/
def Obligations.LoadAndImmediateAddResults : Prop :=
  ∀ (s : State) (x y : Nibble) (nn : Byte),
    (∃ t : State, exec (.ldImm x nn) s = .next t ∧
      t.reg x = nn ∧ sameRegsBut x s t ∧ onlyRegs s t) ∧
    (∃ t : State, exec (.addImm x nn) s = .next t ∧
      (t.reg x).toNat = ((s.reg x).toNat + nn.toNat) % 256 ∧ sameRegsBut x s t ∧ onlyRegs s t) ∧
    (∃ t : State, exec (.ldReg x y) s = .next t ∧
      t.reg x = s.reg y ∧ sameRegsBut x s t ∧ onlyRegs s t) ∧
    stands (wordXNN 0x6 x nn) (.ldImm x nn) ∧ stands (wordXNN 0x7 x nn) (.addImm x nn) ∧
    stands (wordXYN 0x8 x y 0x0) (.ldReg x y)

/-- R105, R106, R107: bitwise OR, AND, XOR; VF is cleared afterward in Baseline and untouched in the other
variants. The function nibbles 1, 2, 3 of the three words are the spec's general knowledge (GK8, log 12,
PRESUMED), not the document's. -/
def Obligations.LogicResults : Prop :=
  ∀ (s : State) (x y : Nibble) (i : Instr) (r : Byte),
    ((i = .or x y ∧ r = s.reg x ||| s.reg y) ∨ (i = .and x y ∧ r = s.reg x &&& s.reg y) ∨
      (i = .xor x y ∧ r = s.reg x ^^^ s.reg y)) →
    (∃ t : State, exec i s = .next t ∧ onlyRegs s t ∧
      (s.variant = .baseline →
        (x ≠ 0xF → t.reg x = r) ∧ t.reg 0xF = 0 ∧ sameRegsButFlag x s t) ∧
      (s.variant ≠ .baseline → t.reg x = r ∧ sameRegsBut x s t)) ∧
    stands (wordXYN 0x8 x y 0x1) (.or x y) ∧ stands (wordXYN 0x8 x y 0x2) (.and x y) ∧
    stands (wordXYN 0x8 x y 0x3) (.xor x y)

/-- R100, R108, R109, R111: the sum and the two differences modulo 256, VF the carry or the no-borrow flag.
That VF holds the flag when x = 0xF, written last, is the spec's decision D10 (log 13); SUBN's function nibble
and operand order are its general knowledge (log 12). So are the nibbles 5 and 7 of the words. -/
def Obligations.AddAndSubtractResults : Prop :=
  ∀ (s : State) (x y : Nibble),
    (∃ t : State, exec (.addReg x y) s = .next t ∧ onlyRegs s t ∧ sameRegsButFlag x s t ∧
      (x ≠ 0xF → (t.reg x).toNat = ((s.reg x).toNat + (s.reg y).toNat) % 256) ∧
      isFlag (t.reg 0xF) ((s.reg x).toNat + (s.reg y).toNat > 255)) ∧
    (∃ t : State, exec (.sub x y) s = .next t ∧ onlyRegs s t ∧ sameRegsButFlag x s t ∧
      (x ≠ 0xF →
        ((t.reg x).toNat : Int) = ((s.reg x).toNat - (s.reg y).toNat : Int) % 256) ∧
      isFlag (t.reg 0xF) ((s.reg x).toNat ≥ (s.reg y).toNat)) ∧
    (∃ t : State, exec (.subn x y) s = .next t ∧ onlyRegs s t ∧ sameRegsButFlag x s t ∧
      (x ≠ 0xF →
        ((t.reg x).toNat : Int) = ((s.reg y).toNat - (s.reg x).toNat : Int) % 256) ∧
      isFlag (t.reg 0xF) ((s.reg y).toNat ≥ (s.reg x).toNat)) ∧
    stands (wordXYN 0x8 x y 0x4) (.addReg x y) ∧ stands (wordXYN 0x8 x y 0x5) (.sub x y) ∧
    stands (wordXYN 0x8 x y 0x7) (.subn x y)

/-- R110, R112: a shift by one of Vy (Baseline) or Vx (the other variants), VF the bit shifted out. That VF
holds the bit when x = 0xF, written last, is the spec's decision D10 (log 13). The function nibbles 6 and E
are its general knowledge (GK8, log 12). -/
def Obligations.ShiftResults : Prop :=
  ∀ (s : State) (x y : Nibble) (src : Byte),
    (s.variant = .baseline → src = s.reg y) → (s.variant ≠ .baseline → src = s.reg x) →
    (∃ t : State, exec (.shr x y) s = .next t ∧ onlyRegs s t ∧ sameRegsButFlag x s t ∧
      (x ≠ 0xF → (t.reg x).toNat = src.toNat / 2) ∧
      isFlag (t.reg 0xF) (src.toNat % 2 = 1)) ∧
    (∃ t : State, exec (.shl x y) s = .next t ∧ onlyRegs s t ∧ sameRegsButFlag x s t ∧
      (x ≠ 0xF → (t.reg x).toNat = (src.toNat * 2) % 256) ∧
      isFlag (t.reg 0xF) (128 ≤ src.toNat)) ∧
    stands (wordXYN 0x8 x y 0x6) (.shr x y) ∧ stands (wordXYN 0x8 x y 0xE) (.shl x y)

/-- R113: the draw, a free value, masked by `nn`; no flag. For every value of the model's draw counter, the
draw used is `Config.rngDraw` of it and the next one is another (assumption log 4). The field layout of the
word is the spec's general knowledge (GK11, log 12). -/
def Obligations.RandomResult : Prop :=
  ∀ (s : State) (x : Nibble) (nn : Byte),
    (∃ t : State, exec (.rnd x nn) s = .next t ∧
      t.reg x = Config.rngDraw s.rngDraws &&& nn ∧ sameRegsBut x s t ∧
      t.rngDraws = s.rngDraws + 1 ∧ (nn = 0 → t.reg x = 0) ∧
      t.pc = s.pc ∧ t.i = s.i ∧ sameMemory s t ∧ sameStack s t ∧ sameTimers s t ∧ sameScreen s t ∧
      sameSetup s t ∧ sameTick s t) ∧
    stands (wordXNN 0xC x nn) (.rnd x nn)

/-! ## Index register and memory instructions (41_index_memory.md) -/

/-- R140, R141, R142: I loaded with an address, incremented modulo 65536, pointed at a glyph. No flag. The
document describes no ANNN: its presence and meaning are the spec's general knowledge (log 12). So are the
three words (GK13, log 12). -/
def Obligations.IndexRegisterResults : Prop :=
  ∀ (s : State) (x : Nibble) (nnn : Addr12),
    (∃ t : State, exec (.ldI nnn) s = .next t ∧ t.i.toNat = nnn.toNat ∧ onlyIndex s t) ∧
    (∃ t : State, exec (.addIVx x) s = .next t ∧
      t.i.toNat = (s.i.toNat + (s.reg x).toNat) % 65536 ∧ onlyIndex s t) ∧
    (∃ t : State, exec (.ldFVx x) s = .next t ∧
      t.i.toNat = 5 * ((s.reg x).toNat % 16) ∧ onlyIndex s t) ∧
    stands (wordNNN 0xA nnn) (.ldI nnn) ∧ stands (wordXNN 0xF x 0x1E) (.addIVx x) ∧
    stands (wordXNN 0xF x 0x29) (.ldFVx x)

/-- R143: hundreds, tens and units of Vx to I, I + 1, I + 2, I unchanged, when the three addresses lie in
memory and outside the font (or the policy is not `Fault`); under `Ignore` a font byte keeps its value (the
policies: D5, log 19). The word is the spec's general knowledge (GK13, log 12). -/
def Obligations.DecimalConversionStores : Prop :=
  ∀ (s : State) (x : Nibble),
    (∀ k : Nat, k < 3 → inMemory (s.i + BitVec.ofNat 16 k) ∧
      (s.config.fontRegionWrite = .fault → 0x04F < (s.i + BitVec.ofNat 16 k).toNat)) →
    (∃ t : State, exec (.ldBVx x) s = .next t ∧
      (∀ (k : Nat) (digit : Nat),
        (k = 0 ∧ digit = (s.reg x).toNat / 100) ∨ (k = 1 ∧ digit = (s.reg x).toNat / 10 % 10) ∨
          (k = 2 ∧ digit = (s.reg x).toNat % 10) →
        (s.config.fontRegionWrite = .ignore → 0x04F < (s.i + BitVec.ofNat 16 k).toNat) →
        (t.byteAt (s.i + BitVec.ofNat 16 k).toNat).toNat = digit) ∧
      sameMemoryOutside s t ((List.range 3).map fun k => s.i + BitVec.ofNat 16 k) ∧
      (s.config.fontRegionWrite = .ignore → ∀ a : Nat, a ≤ 0x04F → t.byteAt a = s.byteAt a) ∧
      sameRegs s t ∧ t.pc = s.pc ∧ t.i = s.i ∧ sameStack s t ∧ sameTimers s t ∧ sameScreen s t ∧
      sameRest s t) ∧
    stands (wordXNN 0xF x 0x33) (.ldBVx x)

/-- R144: V0..Vx to I .. I + x; I advanced by x + 1 in Baseline, unchanged otherwise; under `Ignore` a font
byte keeps its value (the policies: D5, log 19). The word, and that it is the store, are the spec's general
knowledge (GK13, log 12). -/
def Obligations.BulkStoreStoresTheRegisters : Prop :=
  ∀ (s : State) (x : Nibble),
    (∀ k : Nat, k ≤ x.toNat → inMemory (s.i + BitVec.ofNat 16 k) ∧
      (s.config.fontRegionWrite = .fault → 0x04F < (s.i + BitVec.ofNat 16 k).toNat)) →
    (∃ t : State, exec (.ldMemVx x) s = .next t ∧
      (∀ k : Nat, k ≤ x.toNat →
        (s.config.fontRegionWrite = .ignore → 0x04F < (s.i + BitVec.ofNat 16 k).toNat) →
        t.byteAt (s.i + BitVec.ofNat 16 k).toNat = s.reg (BitVec.ofNat 4 k)) ∧
      sameMemoryOutside s t
        ((List.range (x.toNat + 1)).map fun k => s.i + BitVec.ofNat 16 k) ∧
      (s.config.fontRegionWrite = .ignore → ∀ a : Nat, a ≤ 0x04F → t.byteAt a = s.byteAt a) ∧
      (s.variant = .baseline → t.i.toNat = (s.i.toNat + x.toNat + 1) % 65536) ∧
      (s.variant ≠ .baseline → t.i = s.i) ∧
      sameRegs s t ∧ t.pc = s.pc ∧ sameStack s t ∧ sameTimers s t ∧ sameScreen s t ∧
      sameRest s t) ∧
    stands (wordXNN 0xF x 0x55) (.ldMemVx x)

/-- R145: V0..Vx from I .. I + x, the font included; I advanced by x + 1 in Baseline, unchanged otherwise. The
word, and that it is the load, are the spec's general knowledge (GK13, log 12). -/
def Obligations.BulkLoadLoadsTheRegisters : Prop :=
  ∀ (s : State) (x : Nibble),
    (∀ k : Nat, k ≤ x.toNat → inMemory (s.i + BitVec.ofNat 16 k)) →
    (∃ t : State, exec (.ldVxMem x) s = .next t ∧
      (∀ r : Nibble, r ≤ x → t.reg r = s.byteAt (s.i + BitVec.ofNat 16 r.toNat).toNat) ∧
      (∀ r : Nibble, ¬ r ≤ x → t.reg r = s.reg r) ∧
      (s.variant = .baseline → t.i.toNat = (s.i.toNat + x.toNat + 1) % 65536) ∧
      (s.variant ≠ .baseline → t.i = s.i) ∧
      t.pc = s.pc ∧ sameMemory s t ∧ sameStack s t ∧ sameTimers s t ∧ sameScreen s t ∧
      sameRest s t) ∧
    stands (wordXNN 0xF x 0x65) (.ldVxMem x)

/-- R53, R254, R257: an access of FX33, FX55, FX65 or DXYN outside memory raises `AddressError` for the lowest
offset that lies there, and does nothing else (the spec's decisions D4, D18, D19, D24, log 6, 18). -/
def Obligations.FirstAddressOutsideMemoryIsRaised : Prop :=
  ∀ (s : State) (i : Instr) (x y n : Nibble) (len k : Nat),
    ((i = .ldBVx x ∧ len = 3) ∨ (i = .ldMemVx x ∧ len = x.toNat + 1) ∨
      (i = .ldVxMem x ∧ len = x.toNat + 1) ∨ (i = .drw x y n ∧ len = n.toNat)) →
    k < len → ¬ inMemory (s.i + BitVec.ofNat 16 k) →
    (∀ j : Nat, j < k → inMemory (s.i + BitVec.ofNat 16 j)) →
    ∃ t : State, exec i s = .next t ∧ tookError s t (.addressError (s.i + BitVec.ofNat 16 k))

/-- R55, R255, R257: under policy `Fault`, a store of FX33 or FX55 into 0x000..0x04F, all of whose addresses lie in
memory, raises `FontRegionWrite` for the lowest offset that lies there, and does nothing else (the spec's
decisions D5, D19, D24, log 6, 19). -/
def Obligations.FirstFontAddressIsRaised : Prop :=
  ∀ (s : State) (i : Instr) (x : Nibble) (len k : Nat),
    s.config.fontRegionWrite = .fault →
    ((i = .ldBVx x ∧ len = 3) ∨ (i = .ldMemVx x ∧ len = x.toNat + 1)) →
    (∀ j : Nat, j < len → inMemory (s.i + BitVec.ofNat 16 j)) →
    k < len → (s.i + BitVec.ofNat 16 k).toNat ≤ 0x04F →
    (∀ j : Nat, j < k → 0x04F < (s.i + BitVec.ofNat 16 j).toNat) →
    ∃ t : State, exec i s = .next t ∧
      tookError s t (.fontRegionWrite (s.i + BitVec.ofNat 16 k))

/-- R144 and R145 together: storing V0..Vx and loading them back, whatever the registers hold by then, gives
every one of them its value again, when the bytes lie in memory outside the font and I stands where it stood. -/
def Obligations.BulkStoreThenLoadRestores : Prop :=
  ∀ (s t : State) (x : Nibble) (v : Vector Byte 16),
    (∀ k : Nat, k ≤ x.toNat → inMemory (s.i + BitVec.ofNat 16 k) ∧
      0x04F < (s.i + BitVec.ofNat 16 k).toNat) →
    exec (.ldMemVx x) s = .next t →
    ∃ u : State, exec (.ldVxMem x) { t with i := s.i, v := v } = .next u ∧
      ∀ r : Nibble, r ≤ x → u.reg r = s.reg r

/-- R64, R298: a store is seen by the next fetch. A step that runs 0xF155 with I at the word after it stores
V0 and V1 there, and the step after it runs the instruction those two bytes stand for. Fetch coherence is the
spec's decision D28 (log 26); that the word 0xF155 is the store is its general knowledge (GK13, log 12,
PRESUMED). -/
def Obligations.AStoreIsSeenByTheNextFetch : Prop :=
  ∀ (s : State) (i : Instr), 2 ≤ s.batchLeft →
    s.pc.toNat ≤ 0x0FFC → 0x04F < s.pc.toNat + 2 → s.i = s.pc + 2 →
    wordOfBytes (s.byteAt s.pc.toNat) (s.byteAt (s.pc.toNat + 1)) = 0xF155 →
    decode s.variant s.config (wordOfBytes (s.reg 0) (s.reg 1)) = .ok i →
    ∃ t : State, step s = .next t ∧ t.pc = s.pc + 2 ∧ sameRegs s t ∧
      ∃ u : State, exec i { t with pc := s.pc + 4, batchLeft := s.batchLeft - 2 } = .next u ∧
        step t = .next (tickEnded u)

/-! ## Control flow (42_control_flow.md) -/

/-- R160, R163: the jump and the offset jump; the offset register is V0, in Extended the one of the high
nibble of `nnn`. The document describes no plain jump 1NNN: its presence and meaning are the spec's general
knowledge (log 12). So is the word of BNNN (GK15, log 12). -/
def Obligations.JumpTargets : Prop :=
  ∀ (s : State) (nnn : Addr12),
    (∃ t : State, exec (.jp nnn) s = .next t ∧ t.pc.toNat = nnn.toNat ∧ onlyPc s t) ∧
    (∃ t : State, exec (.jpV0 nnn) s = .next t ∧
      (s.variant = .extended →
        t.pc.toNat = nnn.toNat + (s.reg (BitVec.ofNat 4 (nnn.toNat / 256))).toNat) ∧
      (s.variant ≠ .extended → t.pc.toNat = nnn.toNat + (s.reg 0).toNat) ∧ onlyPc s t) ∧
    stands (wordNNN 0x1 nnn) (.jp nnn) ∧ stands (wordNNN 0xB nnn) (.jpV0 nnn)

/-- R161, R253: a call pushes the address after it and jumps; with 15 return addresses held it raises
`StackOverflow` with its own address and does nothing else. Overflow at SP = 15 is the spec's decision D3 (log
24); what an error records and leaves is its decision D19 (log 6). The word is its general knowledge (GK15,
log 12). -/
def Obligations.CallPushesOrOverflows : Prop :=
  ∀ (s : State) (nnn : Addr12),
    (s.sp.val < 15 →
      ∃ t : State, exec (.call nnn) s = .next t ∧
        t.stack[s.sp.val] = s.pc ∧ t.sp.val = s.sp.val + 1 ∧ t.pc.toNat = nnn.toNat ∧
        (∀ k : Fin 16, k ≠ s.sp → t.stack[k.val] = s.stack[k.val]) ∧
        sameRegs s t ∧ t.i = s.i ∧ sameMemory s t ∧ sameTimers s t ∧ sameScreen s t ∧
        sameRest s t) ∧
    (s.sp.val = 15 →
      ∃ t : State, exec (.call nnn) s = .next t ∧ tookError s t (.stackOverflow (s.pc - 2))) ∧
    stands (wordNNN 0x2 nnn) (.call nnn)

/-- R162, R252: a return pops the address it goes to, the slot keeping its value; with none held it raises
`StackUnderflow` with its own address and does nothing else. What an error records and leaves is the spec's
decision D19 (log 6). The word is its general knowledge (GK15, log 12). -/
def Obligations.ReturnPopsOrUnderflows : Prop :=
  ∀ s : State,
    (∀ k : Fin 16, k.val + 1 = s.sp.val →
      ∃ t : State, exec .ret s = .next t ∧ t.pc = s.stack[k.val] ∧ t.sp = k ∧
        t.stack = s.stack ∧ sameRegs s t ∧ t.i = s.i ∧ sameMemory s t ∧ sameTimers s t ∧
        sameScreen s t ∧ sameRest s t) ∧
    (s.sp.val = 0 →
      ∃ t : State, exec .ret s = .next t ∧ tookError s t (.stackUnderflow (s.pc - 2))) ∧
    stands 0x00EE .ret

/-- R161 and R162 together: a call and then a return come back to the instruction after the call, with SP and
the return addresses below it as they were. -/
def Obligations.ReturnUndoesCall : Prop :=
  ∀ (s t : State) (nnn : Addr12) (pc : Word), s.sp.val < 15 → exec (.call nnn) s = .next t →
    ∃ u : State, exec .ret { t with pc := pc } = .next u ∧ u.pc = s.pc ∧ u.sp = s.sp ∧
      ∀ k : Fin 16, k.val < s.sp.val → u.stack[k.val] = s.stack[k.val]

/-- R164 to R167: the conditional skips: 2 bytes more when the condition holds, nothing otherwise. The document
does not describe these four: their presence and meaning are the spec's general knowledge (log 12). -/
def Obligations.SkipConditions : Prop :=
  ∀ (s : State) (x y : Nibble) (nn : Byte) (i : Instr) (p : Prop),
    ((i = .seImm x nn ∧ (p ↔ s.reg x = nn)) ∨ (i = .sneImm x nn ∧ (p ↔ s.reg x ≠ nn)) ∨
      (i = .seReg x y ∧ (p ↔ s.reg x = s.reg y)) ∨
      (i = .sneReg x y ∧ (p ↔ s.reg x ≠ s.reg y))) →
    (∃ t : State, exec i s = .next t ∧ onlyPc s t ∧
      (p → t.pc.toNat = (s.pc.toNat + 2) % 65536) ∧ (¬ p → t.pc = s.pc)) ∧
    stands (wordXNN 0x3 x nn) (.seImm x nn) ∧ stands (wordXNN 0x4 x nn) (.sneImm x nn) ∧
    stands (wordXYN 0x5 x y 0x0) (.seReg x y) ∧ stands (wordXYN 0x9 x y 0x0) (.sneReg x y)

/-- R168, R169: the key skips: the low 4 bits of Vx select the key. The words EX9E and EXA1, and which of them
skips on a pressed key, are the spec's general knowledge (GK15, log 12, PRESUMED). -/
def Obligations.KeySkips : Prop :=
  ∀ (s : State) (x k : Nibble), k.toNat = (s.reg x).toNat % 16 →
    (∃ t : State, exec (.skp x) s = .next t ∧ onlyPc s t ∧
      (s.key k = true → t.pc.toNat = (s.pc.toNat + 2) % 65536) ∧
      (s.key k = false → t.pc = s.pc)) ∧
    (∃ t : State, exec (.sknp x) s = .next t ∧ onlyPc s t ∧
      (s.key k = false → t.pc.toNat = (s.pc.toNat + 2) % 65536) ∧
      (s.key k = true → t.pc = s.pc)) ∧
    stands (wordXNN 0xE x 0x9E) (.skp x) ∧ stands (wordXNN 0xE x 0xA1) (.sknp x)

/-- R170: the key wait records the lowest pressed key in Vx, or sets `pc` back so that it runs again (which
key is the spec's decision D12, log 14). The word is the spec's general knowledge (GK15, log 12). -/
def Obligations.KeyWaitRecordsTheLowestKey : Prop :=
  ∀ (s : State) (x : Nibble),
    (∀ k : Nibble, s.key k = true → (∀ j : Nibble, j < k → s.key j = false) →
      ∃ t : State, exec (.ldVxK x) s = .next t ∧ (t.reg x).toNat = k.toNat ∧
        sameRegsBut x s t ∧ onlyRegs s t) ∧
    ((∀ k : Nibble, s.key k = false) →
      ∃ t : State, exec (.ldVxK x) s = .next t ∧ t.pc = s.pc - 2 ∧ onlyPc s t) ∧
    stands (wordXNN 0xF x 0x0A) (.ldVxK x)

/-- R170, R265, R299: a step of a key wait with no key pressed uses one cycle of the batch, leaves `pc` at the
wait and changes nothing else, but that the tick returns `Ok` when it was the batch's last cycle. That the
word FX0A is the key wait is the spec's general knowledge (GK15, log 12, PRESUMED). -/
def Obligations.KeyWaitSpins : Prop :=
  ∀ (s : State) (x : Nibble), s.Inv → s.batchLeft ≠ 0 → s.pc.toNat ≤ 0x0FFE →
    wordOfBytes (s.byteAt s.pc.toNat) (s.byteAt (s.pc.toNat + 1)) = wordXNN 0xF x 0x0A →
    (∀ k : Nibble, s.key k = false) →
    ∃ t : State, step s = .next t ∧ t.batchLeft = s.batchLeft - 1 ∧ t.pc = s.pc ∧
      sameRegs s t ∧ t.i = s.i ∧ sameMemory s t ∧ sameStack s t ∧ sameTimers s t ∧
      sameScreen s t ∧ sameSetup s t ∧ t.haltedThisTick = s.haltedThisTick ∧
      t.sound = s.sound ∧ t.faultLog = s.faultLog ∧ t.rngDraws = s.rngDraws ∧
      t.tickResult = (if s.batchLeft = 1 then some .ok else none)

/-- R171, R79, R34: the halt sentinel sets `haltedThisTick` and ends the batch, without error and with nothing
else changed. That `pc` stays past the word is the spec's decision D20 (log 21); that Baseline decodes it is its
decision D7 (log 20). -/
def Obligations.HaltSentinelEndsTheBatch : Prop :=
  (∀ s : State, ∃ t : State, exec .exit s = .next t ∧
    t.haltedThisTick = true ∧ t.batchLeft = 0 ∧ t.tickResult = s.tickResult ∧
    t.faultLog = s.faultLog ∧ t.sound = s.sound ∧ sameRegs s t ∧ t.pc = s.pc ∧ t.i = s.i ∧
    sameMemory s t ∧ sameStack s t ∧ sameTimers s t ∧ sameScreen s t ∧ sameSetup s t ∧
    t.rngDraws = s.rngDraws) ∧
  stands 0x00FD .exit

/-- R171, R266: a step that runs the word 0x00FD ends the tick with `Ok`, `pc` past the word: the next tick
goes on with the word after it (the spec's decision D20, log 21). That Baseline decodes the word is its
decision D7 (log 20). -/
def Obligations.AHaltedTickReturnsOk : Prop :=
  ∀ s : State, s.Inv → s.batchLeft ≠ 0 → s.pc.toNat ≤ 0x0FFE →
    s.byteAt s.pc.toNat = 0x00 → s.byteAt (s.pc.toNat + 1) = 0xFD →
    ∃ t : State, step s = .next t ∧ t.batchLeft = 0 ∧ t.tickResult = some .ok ∧
      t.haltedThisTick = true ∧ t.pc = s.pc + 2 ∧ t.faultLog = s.faultLog

/-! ## Timers (43_timers.md) -/

/-- R200, R201, R202: the timer instructions. The three words, and the split of the document's "read/write"
into one read and two writes, are the spec's general knowledge (GK16, log 12, PRESUMED). -/
def Obligations.TimerInstructionResults : Prop :=
  ∀ (s : State) (x : Nibble),
    (∃ t : State, exec (.ldVxDt x) s = .next t ∧ t.reg x = s.dt ∧ sameRegsBut x s t ∧
      onlyRegs s t) ∧
    (∃ t : State, exec (.ldDtVx x) s = .next t ∧ t.dt = s.reg x ∧ t.st = s.st ∧ sameRegs s t ∧
      t.pc = s.pc ∧ t.i = s.i ∧ sameMemory s t ∧ sameStack s t ∧ sameScreen s t ∧
      sameRest s t) ∧
    (∃ t : State, exec (.ldStVx x) s = .next t ∧ t.st = s.reg x ∧ t.dt = s.dt ∧ sameRegs s t ∧
      t.pc = s.pc ∧ t.i = s.i ∧ sameMemory s t ∧ sameStack s t ∧ sameScreen s t ∧
      sameRest s t) ∧
    stands (wordXNN 0xF x 0x07) (.ldVxDt x) ∧ stands (wordXNN 0xF x 0x15) (.ldDtVx x) ∧
    stands (wordXNN 0xF x 0x18) (.ldStVx x)

/-! ## Raster engine (44_raster.md) -/

/-- R210: the entire buffer is cleared, in either mode. That 0x00E0 is its word is the spec's general
knowledge (GK17, log 12, PRESUMED). -/
def Obligations.ClearTurnsEveryPixelOff : Prop :=
  (∀ s : State, ∃ t : State, exec .cls s = .next t ∧
    (∀ row col : Nat, t.pixel row col = false) ∧ t.dirty = true ∧ t.mode = s.mode ∧
    sameRegs s t ∧ onlyScreenAndRegs s t) ∧
  stands 0x00E0 .cls

/-- R212, R213: the mode switches set the mode and dirty and keep the buffer. Their rejection in Baseline
(R77) is the spec's decision D7 (log 20). The words are its general knowledge (GK17, log 12). -/
def Obligations.ModeSwitchKeepsTheBuffer : Prop :=
  (∀ s : State,
    (∃ t : State, exec .low s = .next t ∧ t.mode = .low ∧ t.dirty = true ∧ samePixels s t ∧
      sameRegs s t ∧ onlyScreenAndRegs s t) ∧
    (∃ t : State, exec .high s = .next t ∧ t.mode = .high ∧ t.dirty = true ∧ samePixels s t ∧
      sameRegs s t ∧ onlyScreenAndRegs s t)) ∧
  stands 0x00FE .low ∧ stands 0x00FF .high ∧
  ∀ c : Config, c.extendedOpcodesInBaseline = false →
    decode .baseline c 0x00FE = .error (.notInVariant 0x00FE) ∧
    decode .baseline c 0x00FF = .error (.notInVariant 0x00FF)

/-- R214: in the active region row r takes row r − n and the top n rows become off; every other pixel is kept
(the spec's decision D14, log 15). Dirty set when nothing changes (n = 0) is its decision D16 (log 17), the
rejection in Baseline (R77) its decision D7 (log 20). The word is the spec's general knowledge (GK17, log 12). -/
def Obligations.ScrollDownMovesRows : Prop :=
  (∀ (s : State) (n : Nibble), ∃ t : State, exec (.scd n) s = .next t ∧
    (∀ row col : Nat, row < s.mode.height → col < s.mode.width →
      t.pixel row col = (if n.toNat ≤ row then s.pixel (row - n.toNat) col else false)) ∧
    (∀ row col : Nat, ¬ (row < s.mode.height ∧ col < s.mode.width) →
      t.pixel row col = s.pixel row col) ∧
    t.dirty = true ∧ t.mode = s.mode ∧ sameRegs s t ∧ onlyScreenAndRegs s t) ∧
  (∀ n : Nibble, stands (wordXYN 0x0 0x0 0xC n) (.scd n)) ∧
  ∀ (c : Config) (n : Nibble), c.extendedOpcodesInBaseline = false →
    decode .baseline c (wordXYN 0x0 0x0 0xC n) = .error (.notInVariant (wordXYN 0x0 0x0 0xC n))

/-- R215, R216: in the active region the pixels move four columns right or left, the vacated columns become
off, pixels that leave the region are dropped; every other pixel is kept (the spec's decisions D14, D15, log
15). Dirty set when nothing changes is its decision D16 (log 17), the rejection in Baseline (R77) its decision
D7 (log 20). The words, and which of them moves right, are the spec's general knowledge (GK17, log 12). -/
def Obligations.SideScrollsMoveColumns : Prop :=
  (∀ s : State,
    (∃ t : State, exec .scr s = .next t ∧
      (∀ row col : Nat, row < s.mode.height → col < s.mode.width →
        t.pixel row col = (if 4 ≤ col then s.pixel row (col - 4) else false)) ∧
      (∀ row col : Nat, ¬ (row < s.mode.height ∧ col < s.mode.width) →
        t.pixel row col = s.pixel row col) ∧
      t.dirty = true ∧ t.mode = s.mode ∧ sameRegs s t ∧ onlyScreenAndRegs s t) ∧
    (∃ t : State, exec .scl s = .next t ∧
      (∀ row col : Nat, row < s.mode.height → col < s.mode.width →
        t.pixel row col = (if col + 4 < s.mode.width then s.pixel row (col + 4) else false)) ∧
      (∀ row col : Nat, ¬ (row < s.mode.height ∧ col < s.mode.width) →
        t.pixel row col = s.pixel row col) ∧
      t.dirty = true ∧ t.mode = s.mode ∧ sameRegs s t ∧ onlyScreenAndRegs s t)) ∧
  stands 0x00FB .scr ∧ stands 0x00FC .scl ∧
  ∀ c : Config, c.extendedOpcodesInBaseline = false →
    decode .baseline c 0x00FB = .error (.notInVariant 0x00FB) ∧
    decode .baseline c 0x00FC = .error (.notInVariant 0x00FC)

/-- R211: with its bytes in memory, the draw flips exactly the pixels its sprite covers and sets VF to 1 if
one of them was on, else to 0; the rest is as before. The bit order and n = 0 are the spec's decisions D9, D17
(log 16), dirty set by a draw that changes no pixel is its decision D16 (log 17). The word is the spec's
general knowledge (GK17, log 12). -/
def Obligations.DrawFlipsTheCoveredPixels : Prop :=
  ∀ (s : State) (x y n : Nibble),
    (∀ r : Nat, r < n.toNat → inMemory (s.i + BitVec.ofNat 16 r)) →
    (∃ t : State, exec (.drw x y n) s = .next t ∧
      (∀ row col : Nat,
        (spriteCovers s x y n row col → t.pixel row col = !s.pixel row col) ∧
        (¬ spriteCovers s x y n row col → t.pixel row col = s.pixel row col)) ∧
      isFlag (t.reg 0xF)
        (∃ row col : Nat, spriteCovers s x y n row col ∧ s.pixel row col = true) ∧
      t.dirty = true ∧ t.mode = s.mode ∧ sameRegsBut 0xF s t ∧ onlyScreenAndRegs s t) ∧
    stands (wordXYN 0xD x y n) (.drw x y n)

/-- R211 (the document's own example, for any sprite): drawing the same sprite a second time gives the buffer
back, with VF = 1 exactly when the first draw left one of its pixels on. VF must not be a coordinate, since the
first draw writes it; `Obligations.DrawFlipsTheCoveredPixels` covers that form. The sprite's bit order and n = 0
are the spec's decisions D17, D9 (log 16). -/
def Obligations.DrawingTwiceRestoresTheBuffer : Prop :=
  ∀ (s t : State) (x y n : Nibble), x ≠ 0xF → y ≠ 0xF →
    (∀ r : Nat, r < n.toNat → inMemory (s.i + BitVec.ofNat 16 r)) →
    exec (.drw x y n) s = .next t →
    ∃ u : State, exec (.drw x y n) t = .next u ∧ samePixels s u ∧
      isFlag (u.reg 0xF)
        (∃ row col : Nat, spriteCovers s x y n row col ∧ s.pixel row col = false)

/-! ## Reset and the host's operations (70_reset_and_hazards.md, 60_exceptions.md) -/

/-- R38, R52, R290: the state after construction with a variant: `pc` = 0x200, glyph 0 in the first five bytes,
the glyphs 1..F of the parameter `FONT_TABLE` after it, whatever they are, no instruction cycle in progress; the
values the spec marks as its decision D2 (log 1) are among the clauses. -/
def Obligations.ConstructionValues : Prop :=
  ∀ (v : Variant) (c : Config) (s : State), s = State.construct v c →
    s.pc = 0x200 ∧ s.variant = v ∧ s.config = c ∧
    s.byteAt 0 = 0xF0 ∧ s.byteAt 1 = 0x90 ∧ s.byteAt 2 = 0x90 ∧ s.byteAt 3 = 0x90 ∧
    s.byteAt 4 = 0xF0 ∧ (∀ k : Fin 75, s.byteAt (5 + k.val) = c.fontTable[k.val]) ∧
    (∀ a : Nat, 0x050 ≤ a → s.byteAt a = 0) ∧
    (∀ r : Nibble, s.reg r = 0) ∧ s.i = 0 ∧ s.sp = 0 ∧ (∀ k : Fin 16, s.stack[k.val] = 0) ∧
    s.dt = 0 ∧ s.st = 0 ∧ (∀ row col : Nat, s.pixel row col = false) ∧ s.mode = .low ∧
    s.dirty = false ∧ (∀ k : Nibble, s.key k = false) ∧ s.haltedThisTick = false ∧
    s.faultLog = [] ∧ s.batchLeft = 0

/-- R292, R293: a load between ticks writes the first 3584 bytes of the image from 0x200 on and changes nothing
else (the truncation: the spec's decision D23, log 22). -/
def Obligations.LoadWritesTheProgram : Prop :=
  ∀ (s : State) (bytes : List Byte), s.batchLeft = 0 →
    ∃ t : State, s.drive (.load bytes) = .done t ∧
      (∀ (k : Nat) (h : k < bytes.length), k < 3584 → t.byteAt (0x200 + k) = bytes[k]) ∧
      (∀ a : Nat, (a < 0x200 ∨ 0x200 + min bytes.length 3584 ≤ a) →
        t.byteAt a = s.byteAt a) ∧
      sameRegs s t ∧ t.pc = s.pc ∧ t.i = s.i ∧ sameStack s t ∧ sameTimers s t ∧ sameScreen s t ∧
      sameRest s t

/-- R295: clearing the program zeroes 0x200..0xFFF and changes nothing else. -/
def Obligations.ClearProgramZeroesFromTheStart : Prop :=
  ∀ s : State, s.batchLeft = 0 →
    ∃ t : State, s.drive .clearProgram = .done t ∧
      (∀ a : Nat, 0x200 ≤ a → a ≤ 0xFFF → t.byteAt a = 0) ∧
      (∀ a : Nat, a < 0x200 → t.byteAt a = s.byteAt a) ∧
      sameRegs s t ∧ t.pc = s.pc ∧ t.i = s.i ∧ sameStack s t ∧ sameTimers s t ∧ sameScreen s t ∧
      sameRest s t

/-- R273, R294, R29, R30: the host moves between ticks only; a failed load changes nothing and answers code 6
(the number is the spec's decision D19, log 6, 22); the renderer's clear and a key write change the dirty flag
and that key alone (when the host moves: D13, log 7). -/
def Obligations.HostMovesBetweenTicks : Prop :=
  (∀ (s : State) (a : DriverAction), s.batchLeft ≠ 0 → s.drive a = .notBetweenTicks) ∧
  (∀ s : State, s.batchLeft = 0 → s.drive .loadFails = .loadIOError s ∧
    (s.drive .loadFails).code = some 6) ∧
  (∀ s : State, s.batchLeft = 0 → ∃ t : State, s.drive .clearDirty = .done t ∧
    t.dirty = false ∧ samePixels s t ∧ t.mode = s.mode ∧ sameRegs s t ∧ onlyScreenAndRegs s t) ∧
  (∀ (s : State) (k : Nibble) (b : Bool), s.batchLeft = 0 →
    ∃ t : State, s.drive (.writeKey k b) = .done t ∧ t.key k = b ∧
      (∀ j : Nibble, j ≠ k → t.key j = s.key j) ∧
      t.variant = s.variant ∧ t.config = s.config ∧ t.ipf = s.ipf ∧ t.speed = s.speed ∧
      sameRegs s t ∧ t.pc = s.pc ∧ t.i = s.i ∧ sameMemory s t ∧ sameStack s t ∧ sameTimers s t ∧
      sameScreen s t ∧ sameTick s t ∧ t.rngDraws = s.rngDraws)

/-- R296: a tick on a constructed machine without a program fetches 0x0000 at 0x200, a `DecodeError` (zero
there is the spec's decision D2, log 1). That the word 0x0000 is no instruction is its decision D8 (log 20). -/
def Obligations.NoProgramIsADecodeError : Prop :=
  ∀ (v : Variant) (c : Config) (ipf speed : Nat), ipf * speed ≠ 0 →
    ∃ t : State, (State.construct v c).tick ipf speed = .next t ∧
      t.tickResult = some (.error (.decodeError 0x0000 0x200)) ∧ t.pc = 0x202

/-- R37: whatever its batch runs, a tick gives one sound signal: `Play` if ST was nonzero at its start, else
`Pause`; it does not block the tick. -/
def Obligations.ATickGivesOneSoundSignal : Prop :=
  ∀ (s : State) (ipf speed : Nat),
    ∃ t : State, s.tick ipf speed = .next t ∧
      (s.st ≠ 0 → t.sound = some .play) ∧ (s.st = 0 → t.sound = some .pause)
end

