-- ==== Sys2Proof/Laws/Decode.lean ====
section
/-! SUPPORT. The fields of the words the encoder builds (30_encoding.md rules R71, R73). -/

namespace Sys2Proof

/-! ## Fields of `p ++ x ++ y ++ n` -/

variable (p x y n : Nibble) (nn : Byte) (nnn : Addr12)

@[simp] theorem fieldP_wordXYN : fieldP (wordXYN p x y n) = p := by
  unfold fieldP wordXYN; ext i hi
  rw [← BitVec.getLsbD_eq_getElem, ← BitVec.getLsbD_eq_getElem]
  simp only [BitVec.getLsbD_extractLsb', BitVec.getLsbD_append, hi, decide_true, Bool.true_and]
  split_ifs <;> first | omega | (congr 1; omega)

@[simp] theorem fieldX_wordXYN : fieldX (wordXYN p x y n) = x := by
  unfold fieldX wordXYN; ext i hi
  rw [← BitVec.getLsbD_eq_getElem, ← BitVec.getLsbD_eq_getElem]
  simp only [BitVec.getLsbD_extractLsb', BitVec.getLsbD_append, hi, decide_true, Bool.true_and]
  split_ifs <;> first | omega | (congr 1; omega)

@[simp] theorem fieldY_wordXYN : fieldY (wordXYN p x y n) = y := by
  unfold fieldY wordXYN; ext i hi
  rw [← BitVec.getLsbD_eq_getElem, ← BitVec.getLsbD_eq_getElem]
  simp only [BitVec.getLsbD_extractLsb', BitVec.getLsbD_append, hi, decide_true, Bool.true_and]
  split_ifs <;> first | omega | (congr 1; omega)

@[simp] theorem fieldN_wordXYN : fieldN (wordXYN p x y n) = n := by
  unfold fieldN wordXYN; ext i hi
  rw [← BitVec.getLsbD_eq_getElem, ← BitVec.getLsbD_eq_getElem]
  simp only [BitVec.getLsbD_extractLsb', BitVec.getLsbD_append, hi, decide_true, Bool.true_and]
  split_ifs <;> first | omega | (congr 1; omega)

@[simp] theorem fieldP_wordNNN : fieldP (wordNNN p nnn) = p := by
  unfold fieldP wordNNN; ext i hi
  rw [← BitVec.getLsbD_eq_getElem, ← BitVec.getLsbD_eq_getElem]
  simp only [BitVec.getLsbD_extractLsb', BitVec.getLsbD_append, hi, decide_true, Bool.true_and]
  split_ifs <;> first | omega | (congr 1; omega)

@[simp] theorem fieldNNN_wordNNN : fieldNNN (wordNNN p nnn) = nnn := by
  unfold fieldNNN wordNNN; ext i hi
  rw [← BitVec.getLsbD_eq_getElem, ← BitVec.getLsbD_eq_getElem]
  simp only [BitVec.getLsbD_extractLsb', BitVec.getLsbD_append, hi, decide_true, Bool.true_and]
  split_ifs <;> first | omega | (congr 1; omega)

@[simp] theorem fieldP_wordXNN : fieldP (wordXNN p x nn) = p := by
  unfold fieldP wordXNN; ext i hi
  rw [← BitVec.getLsbD_eq_getElem, ← BitVec.getLsbD_eq_getElem]
  simp only [BitVec.getLsbD_extractLsb', BitVec.getLsbD_append, hi, decide_true, Bool.true_and]
  split_ifs <;> first | omega | (congr 1; omega)

@[simp] theorem fieldX_wordXNN : fieldX (wordXNN p x nn) = x := by
  unfold fieldX wordXNN; ext i hi
  rw [← BitVec.getLsbD_eq_getElem, ← BitVec.getLsbD_eq_getElem]
  simp only [BitVec.getLsbD_extractLsb', BitVec.getLsbD_append, hi, decide_true, Bool.true_and]
  split_ifs <;> first | omega | (congr 1; omega)

@[simp] theorem fieldNN_wordXNN : fieldNN (wordXNN p x nn) = nn := by
  unfold fieldNN wordXNN; ext i hi
  rw [← BitVec.getLsbD_eq_getElem, ← BitVec.getLsbD_eq_getElem]
  simp only [BitVec.getLsbD_extractLsb', BitVec.getLsbD_append, hi, decide_true, Bool.true_and]
  split_ifs <;> first | omega | (congr 1; omega)

/-! ## The fixed bits of a word: what a row's mask leaves -/

theorem wordXNN_and_F000 (p x : Nibble) (nn : Byte) : wordXNN p x nn &&& 0xF000 = wordXNN p 0 0 := by
  unfold wordXNN
  ext i hi
  rw [← BitVec.getLsbD_eq_getElem, ← BitVec.getLsbD_eq_getElem]
  have : ∀ i, i < 16 → (0xF000#16).getLsbD i = decide (12 ≤ i) := by decide
  simp only [BitVec.getLsbD_and, BitVec.getLsbD_append, BitVec.ofNat_eq_ofNat, this i hi]
  split_ifs <;> simp <;> omega

theorem wordXYN_and_F00F (p x y n : Nibble) : wordXYN p x y n &&& 0xF00F = wordXYN p 0 0 n := by
  unfold wordXYN
  ext i hi
  rw [← BitVec.getLsbD_eq_getElem, ← BitVec.getLsbD_eq_getElem]
  have : ∀ i, i < 16 → (0xF00F#16).getLsbD i = decide (12 ≤ i ∨ i < 4) := by decide
  simp only [BitVec.getLsbD_and, BitVec.getLsbD_append, BitVec.ofNat_eq_ofNat, this i hi]
  split_ifs <;> simp <;> omega

theorem wordNNN_and_F000 (p : Nibble) (nnn : Addr12) : wordNNN p nnn &&& 0xF000 = wordNNN p 0 := by
  unfold wordNNN
  ext i hi
  rw [← BitVec.getLsbD_eq_getElem, ← BitVec.getLsbD_eq_getElem]
  have : ∀ i, i < 16 → (0xF000#16).getLsbD i = decide (12 ≤ i) := by decide
  simp only [BitVec.getLsbD_and, BitVec.getLsbD_append, BitVec.ofNat_eq_ofNat, this i hi]
  split_ifs <;> simp <;> omega

theorem wordXNN_and_F0FF (p x : Nibble) (nn : Byte) : wordXNN p x nn &&& 0xF0FF = wordXNN p 0 nn := by
  unfold wordXNN
  ext i hi
  rw [← BitVec.getLsbD_eq_getElem, ← BitVec.getLsbD_eq_getElem]
  have : ∀ i, i < 16 → (0xF0FF#16).getLsbD i = decide (12 ≤ i ∨ i < 8) := by decide
  simp only [BitVec.getLsbD_and, BitVec.getLsbD_append, BitVec.ofNat_eq_ofNat, this i hi]
  split_ifs <;> simp <;> omega

theorem wordXYN_and_F000 (p x y n : Nibble) : wordXYN p x y n &&& 0xF000 = wordXYN p 0 0 0 := by
  unfold wordXYN
  ext i hi
  rw [← BitVec.getLsbD_eq_getElem, ← BitVec.getLsbD_eq_getElem]
  have : ∀ i, i < 16 → (0xF000#16).getLsbD i = decide (12 ≤ i) := by decide
  simp only [BitVec.getLsbD_and, BitVec.getLsbD_append, BitVec.ofNat_eq_ofNat, this i hi]
  split_ifs <;> simp <;> omega

end Sys2Proof
end

