-- ==== Sys2Proof/Laws/State.lean ====
section
/-! SUPPORT. The field lemmas of the state's updates: one per field per update, each true by rfl. -/

namespace Sys2Proof.Machine

variable (s : State)

/-! ### `State.setReg` -/

@[simp] theorem State.setReg_v (x : Nibble) (b : Byte) :
    (s.setReg x b).v = s.v.set x.toNat b x.isLt := rfl
@[simp] theorem State.setReg_pc (x : Nibble) (b : Byte) :
    (s.setReg x b).pc = s.pc := rfl
@[simp] theorem State.setReg_i (x : Nibble) (b : Byte) :
    (s.setReg x b).i = s.i := rfl
@[simp] theorem State.setReg_stack (x : Nibble) (b : Byte) :
    (s.setReg x b).stack = s.stack := rfl
@[simp] theorem State.setReg_sp (x : Nibble) (b : Byte) :
    (s.setReg x b).sp = s.sp := rfl
@[simp] theorem State.setReg_dt (x : Nibble) (b : Byte) :
    (s.setReg x b).dt = s.dt := rfl
@[simp] theorem State.setReg_st (x : Nibble) (b : Byte) :
    (s.setReg x b).st = s.st := rfl
@[simp] theorem State.setReg_mem (x : Nibble) (b : Byte) :
    (s.setReg x b).mem = s.mem := rfl
@[simp] theorem State.setReg_disp (x : Nibble) (b : Byte) :
    (s.setReg x b).disp = s.disp := rfl
@[simp] theorem State.setReg_mode (x : Nibble) (b : Byte) :
    (s.setReg x b).mode = s.mode := rfl
@[simp] theorem State.setReg_dirty (x : Nibble) (b : Byte) :
    (s.setReg x b).dirty = s.dirty := rfl
@[simp] theorem State.setReg_keys (x : Nibble) (b : Byte) :
    (s.setReg x b).keys = s.keys := rfl
@[simp] theorem State.setReg_variant (x : Nibble) (b : Byte) :
    (s.setReg x b).variant = s.variant := rfl
@[simp] theorem State.setReg_config (x : Nibble) (b : Byte) :
    (s.setReg x b).config = s.config := rfl
@[simp] theorem State.setReg_haltedThisTick (x : Nibble) (b : Byte) :
    (s.setReg x b).haltedThisTick = s.haltedThisTick := rfl
@[simp] theorem State.setReg_sound (x : Nibble) (b : Byte) :
    (s.setReg x b).sound = s.sound := rfl
@[simp] theorem State.setReg_batchLeft (x : Nibble) (b : Byte) :
    (s.setReg x b).batchLeft = s.batchLeft := rfl
@[simp] theorem State.setReg_ipf (x : Nibble) (b : Byte) :
    (s.setReg x b).ipf = s.ipf := rfl
@[simp] theorem State.setReg_speed (x : Nibble) (b : Byte) :
    (s.setReg x b).speed = s.speed := rfl
@[simp] theorem State.setReg_tickResult (x : Nibble) (b : Byte) :
    (s.setReg x b).tickResult = s.tickResult := rfl
@[simp] theorem State.setReg_faultLog (x : Nibble) (b : Byte) :
    (s.setReg x b).faultLog = s.faultLog := rfl
@[simp] theorem State.setReg_rngDraws (x : Nibble) (b : Byte) :
    (s.setReg x b).rngDraws = s.rngDraws := rfl

/-! ### `State.advancePc` -/

@[simp] theorem State.advancePc_v :
    (s.advancePc).v = s.v := rfl
@[simp] theorem State.advancePc_pc :
    (s.advancePc).pc = s.pc + 2 := rfl
@[simp] theorem State.advancePc_i :
    (s.advancePc).i = s.i := rfl
@[simp] theorem State.advancePc_stack :
    (s.advancePc).stack = s.stack := rfl
@[simp] theorem State.advancePc_sp :
    (s.advancePc).sp = s.sp := rfl
@[simp] theorem State.advancePc_dt :
    (s.advancePc).dt = s.dt := rfl
@[simp] theorem State.advancePc_st :
    (s.advancePc).st = s.st := rfl
@[simp] theorem State.advancePc_mem :
    (s.advancePc).mem = s.mem := rfl
@[simp] theorem State.advancePc_disp :
    (s.advancePc).disp = s.disp := rfl
@[simp] theorem State.advancePc_mode :
    (s.advancePc).mode = s.mode := rfl
@[simp] theorem State.advancePc_dirty :
    (s.advancePc).dirty = s.dirty := rfl
@[simp] theorem State.advancePc_keys :
    (s.advancePc).keys = s.keys := rfl
@[simp] theorem State.advancePc_variant :
    (s.advancePc).variant = s.variant := rfl
@[simp] theorem State.advancePc_config :
    (s.advancePc).config = s.config := rfl
@[simp] theorem State.advancePc_haltedThisTick :
    (s.advancePc).haltedThisTick = s.haltedThisTick := rfl
@[simp] theorem State.advancePc_sound :
    (s.advancePc).sound = s.sound := rfl
@[simp] theorem State.advancePc_batchLeft :
    (s.advancePc).batchLeft = s.batchLeft := rfl
@[simp] theorem State.advancePc_ipf :
    (s.advancePc).ipf = s.ipf := rfl
@[simp] theorem State.advancePc_speed :
    (s.advancePc).speed = s.speed := rfl
@[simp] theorem State.advancePc_tickResult :
    (s.advancePc).tickResult = s.tickResult := rfl
@[simp] theorem State.advancePc_faultLog :
    (s.advancePc).faultLog = s.faultLog := rfl
@[simp] theorem State.advancePc_rngDraws :
    (s.advancePc).rngDraws = s.rngDraws := rfl

/-! ### `State.jump` -/

@[simp] theorem State.jump_v (w : Word) :
    (s.jump w).v = s.v := rfl
@[simp] theorem State.jump_pc (w : Word) :
    (s.jump w).pc = w := rfl
@[simp] theorem State.jump_i (w : Word) :
    (s.jump w).i = s.i := rfl
@[simp] theorem State.jump_stack (w : Word) :
    (s.jump w).stack = s.stack := rfl
@[simp] theorem State.jump_sp (w : Word) :
    (s.jump w).sp = s.sp := rfl
@[simp] theorem State.jump_dt (w : Word) :
    (s.jump w).dt = s.dt := rfl
@[simp] theorem State.jump_st (w : Word) :
    (s.jump w).st = s.st := rfl
@[simp] theorem State.jump_mem (w : Word) :
    (s.jump w).mem = s.mem := rfl
@[simp] theorem State.jump_disp (w : Word) :
    (s.jump w).disp = s.disp := rfl
@[simp] theorem State.jump_mode (w : Word) :
    (s.jump w).mode = s.mode := rfl
@[simp] theorem State.jump_dirty (w : Word) :
    (s.jump w).dirty = s.dirty := rfl
@[simp] theorem State.jump_keys (w : Word) :
    (s.jump w).keys = s.keys := rfl
@[simp] theorem State.jump_variant (w : Word) :
    (s.jump w).variant = s.variant := rfl
@[simp] theorem State.jump_config (w : Word) :
    (s.jump w).config = s.config := rfl
@[simp] theorem State.jump_haltedThisTick (w : Word) :
    (s.jump w).haltedThisTick = s.haltedThisTick := rfl
@[simp] theorem State.jump_sound (w : Word) :
    (s.jump w).sound = s.sound := rfl
@[simp] theorem State.jump_batchLeft (w : Word) :
    (s.jump w).batchLeft = s.batchLeft := rfl
@[simp] theorem State.jump_ipf (w : Word) :
    (s.jump w).ipf = s.ipf := rfl
@[simp] theorem State.jump_speed (w : Word) :
    (s.jump w).speed = s.speed := rfl
@[simp] theorem State.jump_tickResult (w : Word) :
    (s.jump w).tickResult = s.tickResult := rfl
@[simp] theorem State.jump_faultLog (w : Word) :
    (s.jump w).faultLog = s.faultLog := rfl
@[simp] theorem State.jump_rngDraws (w : Word) :
    (s.jump w).rngDraws = s.rngDraws := rfl

/-! ### `State.setIndex` -/

@[simp] theorem State.setIndex_v (w : Word) :
    (s.setIndex w).v = s.v := rfl
@[simp] theorem State.setIndex_pc (w : Word) :
    (s.setIndex w).pc = s.pc := rfl
@[simp] theorem State.setIndex_i (w : Word) :
    (s.setIndex w).i = w := rfl
@[simp] theorem State.setIndex_stack (w : Word) :
    (s.setIndex w).stack = s.stack := rfl
@[simp] theorem State.setIndex_sp (w : Word) :
    (s.setIndex w).sp = s.sp := rfl
@[simp] theorem State.setIndex_dt (w : Word) :
    (s.setIndex w).dt = s.dt := rfl
@[simp] theorem State.setIndex_st (w : Word) :
    (s.setIndex w).st = s.st := rfl
@[simp] theorem State.setIndex_mem (w : Word) :
    (s.setIndex w).mem = s.mem := rfl
@[simp] theorem State.setIndex_disp (w : Word) :
    (s.setIndex w).disp = s.disp := rfl
@[simp] theorem State.setIndex_mode (w : Word) :
    (s.setIndex w).mode = s.mode := rfl
@[simp] theorem State.setIndex_dirty (w : Word) :
    (s.setIndex w).dirty = s.dirty := rfl
@[simp] theorem State.setIndex_keys (w : Word) :
    (s.setIndex w).keys = s.keys := rfl
@[simp] theorem State.setIndex_variant (w : Word) :
    (s.setIndex w).variant = s.variant := rfl
@[simp] theorem State.setIndex_config (w : Word) :
    (s.setIndex w).config = s.config := rfl
@[simp] theorem State.setIndex_haltedThisTick (w : Word) :
    (s.setIndex w).haltedThisTick = s.haltedThisTick := rfl
@[simp] theorem State.setIndex_sound (w : Word) :
    (s.setIndex w).sound = s.sound := rfl
@[simp] theorem State.setIndex_batchLeft (w : Word) :
    (s.setIndex w).batchLeft = s.batchLeft := rfl
@[simp] theorem State.setIndex_ipf (w : Word) :
    (s.setIndex w).ipf = s.ipf := rfl
@[simp] theorem State.setIndex_speed (w : Word) :
    (s.setIndex w).speed = s.speed := rfl
@[simp] theorem State.setIndex_tickResult (w : Word) :
    (s.setIndex w).tickResult = s.tickResult := rfl
@[simp] theorem State.setIndex_faultLog (w : Word) :
    (s.setIndex w).faultLog = s.faultLog := rfl
@[simp] theorem State.setIndex_rngDraws (w : Word) :
    (s.setIndex w).rngDraws = s.rngDraws := rfl

/-! ### `State.setDisp` -/

@[simp] theorem State.setDisp_v (d : Display) :
    (s.setDisp d).v = s.v := rfl
@[simp] theorem State.setDisp_pc (d : Display) :
    (s.setDisp d).pc = s.pc := rfl
@[simp] theorem State.setDisp_i (d : Display) :
    (s.setDisp d).i = s.i := rfl
@[simp] theorem State.setDisp_stack (d : Display) :
    (s.setDisp d).stack = s.stack := rfl
@[simp] theorem State.setDisp_sp (d : Display) :
    (s.setDisp d).sp = s.sp := rfl
@[simp] theorem State.setDisp_dt (d : Display) :
    (s.setDisp d).dt = s.dt := rfl
@[simp] theorem State.setDisp_st (d : Display) :
    (s.setDisp d).st = s.st := rfl
@[simp] theorem State.setDisp_mem (d : Display) :
    (s.setDisp d).mem = s.mem := rfl
@[simp] theorem State.setDisp_disp (d : Display) :
    (s.setDisp d).disp = d := rfl
@[simp] theorem State.setDisp_mode (d : Display) :
    (s.setDisp d).mode = s.mode := rfl
@[simp] theorem State.setDisp_dirty (d : Display) :
    (s.setDisp d).dirty = true := rfl
@[simp] theorem State.setDisp_keys (d : Display) :
    (s.setDisp d).keys = s.keys := rfl
@[simp] theorem State.setDisp_variant (d : Display) :
    (s.setDisp d).variant = s.variant := rfl
@[simp] theorem State.setDisp_config (d : Display) :
    (s.setDisp d).config = s.config := rfl
@[simp] theorem State.setDisp_haltedThisTick (d : Display) :
    (s.setDisp d).haltedThisTick = s.haltedThisTick := rfl
@[simp] theorem State.setDisp_sound (d : Display) :
    (s.setDisp d).sound = s.sound := rfl
@[simp] theorem State.setDisp_batchLeft (d : Display) :
    (s.setDisp d).batchLeft = s.batchLeft := rfl
@[simp] theorem State.setDisp_ipf (d : Display) :
    (s.setDisp d).ipf = s.ipf := rfl
@[simp] theorem State.setDisp_speed (d : Display) :
    (s.setDisp d).speed = s.speed := rfl
@[simp] theorem State.setDisp_tickResult (d : Display) :
    (s.setDisp d).tickResult = s.tickResult := rfl
@[simp] theorem State.setDisp_faultLog (d : Display) :
    (s.setDisp d).faultLog = s.faultLog := rfl
@[simp] theorem State.setDisp_rngDraws (d : Display) :
    (s.setDisp d).rngDraws = s.rngDraws := rfl

/-! ### `State.setMode` -/

@[simp] theorem State.setMode_v (m : Mode) :
    (s.setMode m).v = s.v := rfl
@[simp] theorem State.setMode_pc (m : Mode) :
    (s.setMode m).pc = s.pc := rfl
@[simp] theorem State.setMode_i (m : Mode) :
    (s.setMode m).i = s.i := rfl
@[simp] theorem State.setMode_stack (m : Mode) :
    (s.setMode m).stack = s.stack := rfl
@[simp] theorem State.setMode_sp (m : Mode) :
    (s.setMode m).sp = s.sp := rfl
@[simp] theorem State.setMode_dt (m : Mode) :
    (s.setMode m).dt = s.dt := rfl
@[simp] theorem State.setMode_st (m : Mode) :
    (s.setMode m).st = s.st := rfl
@[simp] theorem State.setMode_mem (m : Mode) :
    (s.setMode m).mem = s.mem := rfl
@[simp] theorem State.setMode_disp (m : Mode) :
    (s.setMode m).disp = s.disp := rfl
@[simp] theorem State.setMode_mode (m : Mode) :
    (s.setMode m).mode = m := rfl
@[simp] theorem State.setMode_dirty (m : Mode) :
    (s.setMode m).dirty = true := rfl
@[simp] theorem State.setMode_keys (m : Mode) :
    (s.setMode m).keys = s.keys := rfl
@[simp] theorem State.setMode_variant (m : Mode) :
    (s.setMode m).variant = s.variant := rfl
@[simp] theorem State.setMode_config (m : Mode) :
    (s.setMode m).config = s.config := rfl
@[simp] theorem State.setMode_haltedThisTick (m : Mode) :
    (s.setMode m).haltedThisTick = s.haltedThisTick := rfl
@[simp] theorem State.setMode_sound (m : Mode) :
    (s.setMode m).sound = s.sound := rfl
@[simp] theorem State.setMode_batchLeft (m : Mode) :
    (s.setMode m).batchLeft = s.batchLeft := rfl
@[simp] theorem State.setMode_ipf (m : Mode) :
    (s.setMode m).ipf = s.ipf := rfl
@[simp] theorem State.setMode_speed (m : Mode) :
    (s.setMode m).speed = s.speed := rfl
@[simp] theorem State.setMode_tickResult (m : Mode) :
    (s.setMode m).tickResult = s.tickResult := rfl
@[simp] theorem State.setMode_faultLog (m : Mode) :
    (s.setMode m).faultLog = s.faultLog := rfl
@[simp] theorem State.setMode_rngDraws (m : Mode) :
    (s.setMode m).rngDraws = s.rngDraws := rfl

/-! ### `State.setDt` -/

@[simp] theorem State.setDt_v (b : Byte) :
    (s.setDt b).v = s.v := rfl
@[simp] theorem State.setDt_pc (b : Byte) :
    (s.setDt b).pc = s.pc := rfl
@[simp] theorem State.setDt_i (b : Byte) :
    (s.setDt b).i = s.i := rfl
@[simp] theorem State.setDt_stack (b : Byte) :
    (s.setDt b).stack = s.stack := rfl
@[simp] theorem State.setDt_sp (b : Byte) :
    (s.setDt b).sp = s.sp := rfl
@[simp] theorem State.setDt_dt (b : Byte) :
    (s.setDt b).dt = b := rfl
@[simp] theorem State.setDt_st (b : Byte) :
    (s.setDt b).st = s.st := rfl
@[simp] theorem State.setDt_mem (b : Byte) :
    (s.setDt b).mem = s.mem := rfl
@[simp] theorem State.setDt_disp (b : Byte) :
    (s.setDt b).disp = s.disp := rfl
@[simp] theorem State.setDt_mode (b : Byte) :
    (s.setDt b).mode = s.mode := rfl
@[simp] theorem State.setDt_dirty (b : Byte) :
    (s.setDt b).dirty = s.dirty := rfl
@[simp] theorem State.setDt_keys (b : Byte) :
    (s.setDt b).keys = s.keys := rfl
@[simp] theorem State.setDt_variant (b : Byte) :
    (s.setDt b).variant = s.variant := rfl
@[simp] theorem State.setDt_config (b : Byte) :
    (s.setDt b).config = s.config := rfl
@[simp] theorem State.setDt_haltedThisTick (b : Byte) :
    (s.setDt b).haltedThisTick = s.haltedThisTick := rfl
@[simp] theorem State.setDt_sound (b : Byte) :
    (s.setDt b).sound = s.sound := rfl
@[simp] theorem State.setDt_batchLeft (b : Byte) :
    (s.setDt b).batchLeft = s.batchLeft := rfl
@[simp] theorem State.setDt_ipf (b : Byte) :
    (s.setDt b).ipf = s.ipf := rfl
@[simp] theorem State.setDt_speed (b : Byte) :
    (s.setDt b).speed = s.speed := rfl
@[simp] theorem State.setDt_tickResult (b : Byte) :
    (s.setDt b).tickResult = s.tickResult := rfl
@[simp] theorem State.setDt_faultLog (b : Byte) :
    (s.setDt b).faultLog = s.faultLog := rfl
@[simp] theorem State.setDt_rngDraws (b : Byte) :
    (s.setDt b).rngDraws = s.rngDraws := rfl

/-! ### `State.setSt` -/

@[simp] theorem State.setSt_v (b : Byte) :
    (s.setSt b).v = s.v := rfl
@[simp] theorem State.setSt_pc (b : Byte) :
    (s.setSt b).pc = s.pc := rfl
@[simp] theorem State.setSt_i (b : Byte) :
    (s.setSt b).i = s.i := rfl
@[simp] theorem State.setSt_stack (b : Byte) :
    (s.setSt b).stack = s.stack := rfl
@[simp] theorem State.setSt_sp (b : Byte) :
    (s.setSt b).sp = s.sp := rfl
@[simp] theorem State.setSt_dt (b : Byte) :
    (s.setSt b).dt = s.dt := rfl
@[simp] theorem State.setSt_st (b : Byte) :
    (s.setSt b).st = b := rfl
@[simp] theorem State.setSt_mem (b : Byte) :
    (s.setSt b).mem = s.mem := rfl
@[simp] theorem State.setSt_disp (b : Byte) :
    (s.setSt b).disp = s.disp := rfl
@[simp] theorem State.setSt_mode (b : Byte) :
    (s.setSt b).mode = s.mode := rfl
@[simp] theorem State.setSt_dirty (b : Byte) :
    (s.setSt b).dirty = s.dirty := rfl
@[simp] theorem State.setSt_keys (b : Byte) :
    (s.setSt b).keys = s.keys := rfl
@[simp] theorem State.setSt_variant (b : Byte) :
    (s.setSt b).variant = s.variant := rfl
@[simp] theorem State.setSt_config (b : Byte) :
    (s.setSt b).config = s.config := rfl
@[simp] theorem State.setSt_haltedThisTick (b : Byte) :
    (s.setSt b).haltedThisTick = s.haltedThisTick := rfl
@[simp] theorem State.setSt_sound (b : Byte) :
    (s.setSt b).sound = s.sound := rfl
@[simp] theorem State.setSt_batchLeft (b : Byte) :
    (s.setSt b).batchLeft = s.batchLeft := rfl
@[simp] theorem State.setSt_ipf (b : Byte) :
    (s.setSt b).ipf = s.ipf := rfl
@[simp] theorem State.setSt_speed (b : Byte) :
    (s.setSt b).speed = s.speed := rfl
@[simp] theorem State.setSt_tickResult (b : Byte) :
    (s.setSt b).tickResult = s.tickResult := rfl
@[simp] theorem State.setSt_faultLog (b : Byte) :
    (s.setSt b).faultLog = s.faultLog := rfl
@[simp] theorem State.setSt_rngDraws (b : Byte) :
    (s.setSt b).rngDraws = s.rngDraws := rfl

/-! ### `State.push` -/

@[simp] theorem State.push_v (w : Word) :
    (s.push w).v = s.v := rfl
@[simp] theorem State.push_pc (w : Word) :
    (s.push w).pc = s.pc := rfl
@[simp] theorem State.push_i (w : Word) :
    (s.push w).i = s.i := rfl
@[simp] theorem State.push_stack (w : Word) :
    (s.push w).stack = s.stack.set s.sp.val w s.sp.isLt := rfl
@[simp] theorem State.push_sp (w : Word) :
    (s.push w).sp = s.sp + 1 := rfl
@[simp] theorem State.push_dt (w : Word) :
    (s.push w).dt = s.dt := rfl
@[simp] theorem State.push_st (w : Word) :
    (s.push w).st = s.st := rfl
@[simp] theorem State.push_mem (w : Word) :
    (s.push w).mem = s.mem := rfl
@[simp] theorem State.push_disp (w : Word) :
    (s.push w).disp = s.disp := rfl
@[simp] theorem State.push_mode (w : Word) :
    (s.push w).mode = s.mode := rfl
@[simp] theorem State.push_dirty (w : Word) :
    (s.push w).dirty = s.dirty := rfl
@[simp] theorem State.push_keys (w : Word) :
    (s.push w).keys = s.keys := rfl
@[simp] theorem State.push_variant (w : Word) :
    (s.push w).variant = s.variant := rfl
@[simp] theorem State.push_config (w : Word) :
    (s.push w).config = s.config := rfl
@[simp] theorem State.push_haltedThisTick (w : Word) :
    (s.push w).haltedThisTick = s.haltedThisTick := rfl
@[simp] theorem State.push_sound (w : Word) :
    (s.push w).sound = s.sound := rfl
@[simp] theorem State.push_batchLeft (w : Word) :
    (s.push w).batchLeft = s.batchLeft := rfl
@[simp] theorem State.push_ipf (w : Word) :
    (s.push w).ipf = s.ipf := rfl
@[simp] theorem State.push_speed (w : Word) :
    (s.push w).speed = s.speed := rfl
@[simp] theorem State.push_tickResult (w : Word) :
    (s.push w).tickResult = s.tickResult := rfl
@[simp] theorem State.push_faultLog (w : Word) :
    (s.push w).faultLog = s.faultLog := rfl
@[simp] theorem State.push_rngDraws (w : Word) :
    (s.push w).rngDraws = s.rngDraws := rfl

/-! ### `State.pop` -/

@[simp] theorem State.pop_v :
    (s.pop).v = s.v := rfl
@[simp] theorem State.pop_pc :
    (s.pop).pc = s.pc := rfl
@[simp] theorem State.pop_i :
    (s.pop).i = s.i := rfl
@[simp] theorem State.pop_stack :
    (s.pop).stack = s.stack := rfl
@[simp] theorem State.pop_sp :
    (s.pop).sp = s.sp - 1 := rfl
@[simp] theorem State.pop_dt :
    (s.pop).dt = s.dt := rfl
@[simp] theorem State.pop_st :
    (s.pop).st = s.st := rfl
@[simp] theorem State.pop_mem :
    (s.pop).mem = s.mem := rfl
@[simp] theorem State.pop_disp :
    (s.pop).disp = s.disp := rfl
@[simp] theorem State.pop_mode :
    (s.pop).mode = s.mode := rfl
@[simp] theorem State.pop_dirty :
    (s.pop).dirty = s.dirty := rfl
@[simp] theorem State.pop_keys :
    (s.pop).keys = s.keys := rfl
@[simp] theorem State.pop_variant :
    (s.pop).variant = s.variant := rfl
@[simp] theorem State.pop_config :
    (s.pop).config = s.config := rfl
@[simp] theorem State.pop_haltedThisTick :
    (s.pop).haltedThisTick = s.haltedThisTick := rfl
@[simp] theorem State.pop_sound :
    (s.pop).sound = s.sound := rfl
@[simp] theorem State.pop_batchLeft :
    (s.pop).batchLeft = s.batchLeft := rfl
@[simp] theorem State.pop_ipf :
    (s.pop).ipf = s.ipf := rfl
@[simp] theorem State.pop_speed :
    (s.pop).speed = s.speed := rfl
@[simp] theorem State.pop_tickResult :
    (s.pop).tickResult = s.tickResult := rfl
@[simp] theorem State.pop_faultLog :
    (s.pop).faultLog = s.faultLog := rfl
@[simp] theorem State.pop_rngDraws :
    (s.pop).rngDraws = s.rngDraws := rfl

/-! ### `State.raise` -/

@[simp] theorem State.raise_v (e : CoreError) :
    (s.raise e).v = s.v := rfl
@[simp] theorem State.raise_pc (e : CoreError) :
    (s.raise e).pc = s.pc := rfl
@[simp] theorem State.raise_i (e : CoreError) :
    (s.raise e).i = s.i := rfl
@[simp] theorem State.raise_stack (e : CoreError) :
    (s.raise e).stack = s.stack := rfl
@[simp] theorem State.raise_sp (e : CoreError) :
    (s.raise e).sp = s.sp := rfl
@[simp] theorem State.raise_dt (e : CoreError) :
    (s.raise e).dt = s.dt := rfl
@[simp] theorem State.raise_st (e : CoreError) :
    (s.raise e).st = s.st := rfl
@[simp] theorem State.raise_mem (e : CoreError) :
    (s.raise e).mem = s.mem := rfl
@[simp] theorem State.raise_disp (e : CoreError) :
    (s.raise e).disp = s.disp := rfl
@[simp] theorem State.raise_mode (e : CoreError) :
    (s.raise e).mode = s.mode := rfl
@[simp] theorem State.raise_dirty (e : CoreError) :
    (s.raise e).dirty = s.dirty := rfl
@[simp] theorem State.raise_keys (e : CoreError) :
    (s.raise e).keys = s.keys := rfl
@[simp] theorem State.raise_variant (e : CoreError) :
    (s.raise e).variant = s.variant := rfl
@[simp] theorem State.raise_config (e : CoreError) :
    (s.raise e).config = s.config := rfl
@[simp] theorem State.raise_haltedThisTick (e : CoreError) :
    (s.raise e).haltedThisTick = s.haltedThisTick := rfl
@[simp] theorem State.raise_sound (e : CoreError) :
    (s.raise e).sound = s.sound := rfl
@[simp] theorem State.raise_batchLeft (e : CoreError) :
    (s.raise e).batchLeft = 0 := rfl
@[simp] theorem State.raise_ipf (e : CoreError) :
    (s.raise e).ipf = s.ipf := rfl
@[simp] theorem State.raise_speed (e : CoreError) :
    (s.raise e).speed = s.speed := rfl
@[simp] theorem State.raise_tickResult (e : CoreError) :
    (s.raise e).tickResult = some (.error e) := rfl
@[simp] theorem State.raise_faultLog (e : CoreError) :
    (s.raise e).faultLog = e :: s.faultLog := rfl
@[simp] theorem State.raise_rngDraws (e : CoreError) :
    (s.raise e).rngDraws = s.rngDraws := rfl

/-! ### `State.haltBatch` -/

@[simp] theorem State.haltBatch_v :
    (s.haltBatch).v = s.v := rfl
@[simp] theorem State.haltBatch_pc :
    (s.haltBatch).pc = s.pc := rfl
@[simp] theorem State.haltBatch_i :
    (s.haltBatch).i = s.i := rfl
@[simp] theorem State.haltBatch_stack :
    (s.haltBatch).stack = s.stack := rfl
@[simp] theorem State.haltBatch_sp :
    (s.haltBatch).sp = s.sp := rfl
@[simp] theorem State.haltBatch_dt :
    (s.haltBatch).dt = s.dt := rfl
@[simp] theorem State.haltBatch_st :
    (s.haltBatch).st = s.st := rfl
@[simp] theorem State.haltBatch_mem :
    (s.haltBatch).mem = s.mem := rfl
@[simp] theorem State.haltBatch_disp :
    (s.haltBatch).disp = s.disp := rfl
@[simp] theorem State.haltBatch_mode :
    (s.haltBatch).mode = s.mode := rfl
@[simp] theorem State.haltBatch_dirty :
    (s.haltBatch).dirty = s.dirty := rfl
@[simp] theorem State.haltBatch_keys :
    (s.haltBatch).keys = s.keys := rfl
@[simp] theorem State.haltBatch_variant :
    (s.haltBatch).variant = s.variant := rfl
@[simp] theorem State.haltBatch_config :
    (s.haltBatch).config = s.config := rfl
@[simp] theorem State.haltBatch_haltedThisTick :
    (s.haltBatch).haltedThisTick = true := rfl
@[simp] theorem State.haltBatch_sound :
    (s.haltBatch).sound = s.sound := rfl
@[simp] theorem State.haltBatch_batchLeft :
    (s.haltBatch).batchLeft = 0 := rfl
@[simp] theorem State.haltBatch_ipf :
    (s.haltBatch).ipf = s.ipf := rfl
@[simp] theorem State.haltBatch_speed :
    (s.haltBatch).speed = s.speed := rfl
@[simp] theorem State.haltBatch_tickResult :
    (s.haltBatch).tickResult = s.tickResult := rfl
@[simp] theorem State.haltBatch_faultLog :
    (s.haltBatch).faultLog = s.faultLog := rfl
@[simp] theorem State.haltBatch_rngDraws :
    (s.haltBatch).rngDraws = s.rngDraws := rfl

/-! ### `State.nextDraw` -/

@[simp] theorem State.nextDraw_v :
    (s.nextDraw).v = s.v := rfl
@[simp] theorem State.nextDraw_pc :
    (s.nextDraw).pc = s.pc := rfl
@[simp] theorem State.nextDraw_i :
    (s.nextDraw).i = s.i := rfl
@[simp] theorem State.nextDraw_stack :
    (s.nextDraw).stack = s.stack := rfl
@[simp] theorem State.nextDraw_sp :
    (s.nextDraw).sp = s.sp := rfl
@[simp] theorem State.nextDraw_dt :
    (s.nextDraw).dt = s.dt := rfl
@[simp] theorem State.nextDraw_st :
    (s.nextDraw).st = s.st := rfl
@[simp] theorem State.nextDraw_mem :
    (s.nextDraw).mem = s.mem := rfl
@[simp] theorem State.nextDraw_disp :
    (s.nextDraw).disp = s.disp := rfl
@[simp] theorem State.nextDraw_mode :
    (s.nextDraw).mode = s.mode := rfl
@[simp] theorem State.nextDraw_dirty :
    (s.nextDraw).dirty = s.dirty := rfl
@[simp] theorem State.nextDraw_keys :
    (s.nextDraw).keys = s.keys := rfl
@[simp] theorem State.nextDraw_variant :
    (s.nextDraw).variant = s.variant := rfl
@[simp] theorem State.nextDraw_config :
    (s.nextDraw).config = s.config := rfl
@[simp] theorem State.nextDraw_haltedThisTick :
    (s.nextDraw).haltedThisTick = s.haltedThisTick := rfl
@[simp] theorem State.nextDraw_sound :
    (s.nextDraw).sound = s.sound := rfl
@[simp] theorem State.nextDraw_batchLeft :
    (s.nextDraw).batchLeft = s.batchLeft := rfl
@[simp] theorem State.nextDraw_ipf :
    (s.nextDraw).ipf = s.ipf := rfl
@[simp] theorem State.nextDraw_speed :
    (s.nextDraw).speed = s.speed := rfl
@[simp] theorem State.nextDraw_tickResult :
    (s.nextDraw).tickResult = s.tickResult := rfl
@[simp] theorem State.nextDraw_faultLog :
    (s.nextDraw).faultLog = s.faultLog := rfl
@[simp] theorem State.nextDraw_rngDraws :
    (s.nextDraw).rngDraws = s.rngDraws + 1 := rfl

/-! ### `State.countCycle` -/

@[simp] theorem State.countCycle_v :
    (s.countCycle).v = s.v := rfl
@[simp] theorem State.countCycle_pc :
    (s.countCycle).pc = s.pc := rfl
@[simp] theorem State.countCycle_i :
    (s.countCycle).i = s.i := rfl
@[simp] theorem State.countCycle_stack :
    (s.countCycle).stack = s.stack := rfl
@[simp] theorem State.countCycle_sp :
    (s.countCycle).sp = s.sp := rfl
@[simp] theorem State.countCycle_dt :
    (s.countCycle).dt = s.dt := rfl
@[simp] theorem State.countCycle_st :
    (s.countCycle).st = s.st := rfl
@[simp] theorem State.countCycle_mem :
    (s.countCycle).mem = s.mem := rfl
@[simp] theorem State.countCycle_disp :
    (s.countCycle).disp = s.disp := rfl
@[simp] theorem State.countCycle_mode :
    (s.countCycle).mode = s.mode := rfl
@[simp] theorem State.countCycle_dirty :
    (s.countCycle).dirty = s.dirty := rfl
@[simp] theorem State.countCycle_keys :
    (s.countCycle).keys = s.keys := rfl
@[simp] theorem State.countCycle_variant :
    (s.countCycle).variant = s.variant := rfl
@[simp] theorem State.countCycle_config :
    (s.countCycle).config = s.config := rfl
@[simp] theorem State.countCycle_haltedThisTick :
    (s.countCycle).haltedThisTick = s.haltedThisTick := rfl
@[simp] theorem State.countCycle_sound :
    (s.countCycle).sound = s.sound := rfl
@[simp] theorem State.countCycle_batchLeft :
    (s.countCycle).batchLeft = s.batchLeft - 1 := rfl
@[simp] theorem State.countCycle_ipf :
    (s.countCycle).ipf = s.ipf := rfl
@[simp] theorem State.countCycle_speed :
    (s.countCycle).speed = s.speed := rfl
@[simp] theorem State.countCycle_tickResult :
    (s.countCycle).tickResult = s.tickResult := rfl
@[simp] theorem State.countCycle_faultLog :
    (s.countCycle).faultLog = s.faultLog := rfl
@[simp] theorem State.countCycle_rngDraws :
    (s.countCycle).rngDraws = s.rngDraws := rfl

/-! ### `State.startTick` -/

@[simp] theorem State.startTick_v :
    (s.startTick).v = s.v := rfl
@[simp] theorem State.startTick_pc :
    (s.startTick).pc = s.pc := rfl
@[simp] theorem State.startTick_i :
    (s.startTick).i = s.i := rfl
@[simp] theorem State.startTick_stack :
    (s.startTick).stack = s.stack := rfl
@[simp] theorem State.startTick_sp :
    (s.startTick).sp = s.sp := rfl
@[simp] theorem State.startTick_dt :
    (s.startTick).dt = countDown s.dt := rfl
@[simp] theorem State.startTick_st :
    (s.startTick).st = countDown s.st := rfl
@[simp] theorem State.startTick_mem :
    (s.startTick).mem = s.mem := rfl
@[simp] theorem State.startTick_disp :
    (s.startTick).disp = s.disp := rfl
@[simp] theorem State.startTick_mode :
    (s.startTick).mode = s.mode := rfl
@[simp] theorem State.startTick_dirty :
    (s.startTick).dirty = s.dirty := rfl
@[simp] theorem State.startTick_keys :
    (s.startTick).keys = s.keys := rfl
@[simp] theorem State.startTick_variant :
    (s.startTick).variant = s.variant := rfl
@[simp] theorem State.startTick_config :
    (s.startTick).config = s.config := rfl
@[simp] theorem State.startTick_haltedThisTick :
    (s.startTick).haltedThisTick = false := rfl
@[simp] theorem State.startTick_sound :
    (s.startTick).sound = some (soundSignal s.st) := rfl
@[simp] theorem State.startTick_batchLeft :
    (s.startTick).batchLeft = s.ipf * s.speed := rfl
@[simp] theorem State.startTick_ipf :
    (s.startTick).ipf = s.ipf := rfl
@[simp] theorem State.startTick_speed :
    (s.startTick).speed = s.speed := rfl
@[simp] theorem State.startTick_tickResult :
    (s.startTick).tickResult = none := rfl
@[simp] theorem State.startTick_faultLog :
    (s.startTick).faultLog = s.faultLog := rfl
@[simp] theorem State.startTick_rngDraws :
    (s.startTick).rngDraws = s.rngDraws := rfl

/-! ### `State.setTickArgs` -/

@[simp] theorem State.setTickArgs_v (ipf speed : Nat) :
    (s.setTickArgs ipf speed).v = s.v := rfl
@[simp] theorem State.setTickArgs_pc (ipf speed : Nat) :
    (s.setTickArgs ipf speed).pc = s.pc := rfl
@[simp] theorem State.setTickArgs_i (ipf speed : Nat) :
    (s.setTickArgs ipf speed).i = s.i := rfl
@[simp] theorem State.setTickArgs_stack (ipf speed : Nat) :
    (s.setTickArgs ipf speed).stack = s.stack := rfl
@[simp] theorem State.setTickArgs_sp (ipf speed : Nat) :
    (s.setTickArgs ipf speed).sp = s.sp := rfl
@[simp] theorem State.setTickArgs_dt (ipf speed : Nat) :
    (s.setTickArgs ipf speed).dt = s.dt := rfl
@[simp] theorem State.setTickArgs_st (ipf speed : Nat) :
    (s.setTickArgs ipf speed).st = s.st := rfl
@[simp] theorem State.setTickArgs_mem (ipf speed : Nat) :
    (s.setTickArgs ipf speed).mem = s.mem := rfl
@[simp] theorem State.setTickArgs_disp (ipf speed : Nat) :
    (s.setTickArgs ipf speed).disp = s.disp := rfl
@[simp] theorem State.setTickArgs_mode (ipf speed : Nat) :
    (s.setTickArgs ipf speed).mode = s.mode := rfl
@[simp] theorem State.setTickArgs_dirty (ipf speed : Nat) :
    (s.setTickArgs ipf speed).dirty = s.dirty := rfl
@[simp] theorem State.setTickArgs_keys (ipf speed : Nat) :
    (s.setTickArgs ipf speed).keys = s.keys := rfl
@[simp] theorem State.setTickArgs_variant (ipf speed : Nat) :
    (s.setTickArgs ipf speed).variant = s.variant := rfl
@[simp] theorem State.setTickArgs_config (ipf speed : Nat) :
    (s.setTickArgs ipf speed).config = s.config := rfl
@[simp] theorem State.setTickArgs_haltedThisTick (ipf speed : Nat) :
    (s.setTickArgs ipf speed).haltedThisTick = s.haltedThisTick := rfl
@[simp] theorem State.setTickArgs_sound (ipf speed : Nat) :
    (s.setTickArgs ipf speed).sound = s.sound := rfl
@[simp] theorem State.setTickArgs_batchLeft (ipf speed : Nat) :
    (s.setTickArgs ipf speed).batchLeft = s.batchLeft := rfl
@[simp] theorem State.setTickArgs_ipf (ipf speed : Nat) :
    (s.setTickArgs ipf speed).ipf = ipf := rfl
@[simp] theorem State.setTickArgs_speed (ipf speed : Nat) :
    (s.setTickArgs ipf speed).speed = speed := rfl
@[simp] theorem State.setTickArgs_tickResult (ipf speed : Nat) :
    (s.setTickArgs ipf speed).tickResult = s.tickResult := rfl
@[simp] theorem State.setTickArgs_faultLog (ipf speed : Nat) :
    (s.setTickArgs ipf speed).faultLog = s.faultLog := rfl
@[simp] theorem State.setTickArgs_rngDraws (ipf speed : Nat) :
    (s.setTickArgs ipf speed).rngDraws = s.rngDraws := rfl

/-! ### `State.clearDirty` -/

@[simp] theorem State.clearDirty_v :
    (s.clearDirty).v = s.v := rfl
@[simp] theorem State.clearDirty_pc :
    (s.clearDirty).pc = s.pc := rfl
@[simp] theorem State.clearDirty_i :
    (s.clearDirty).i = s.i := rfl
@[simp] theorem State.clearDirty_stack :
    (s.clearDirty).stack = s.stack := rfl
@[simp] theorem State.clearDirty_sp :
    (s.clearDirty).sp = s.sp := rfl
@[simp] theorem State.clearDirty_dt :
    (s.clearDirty).dt = s.dt := rfl
@[simp] theorem State.clearDirty_st :
    (s.clearDirty).st = s.st := rfl
@[simp] theorem State.clearDirty_mem :
    (s.clearDirty).mem = s.mem := rfl
@[simp] theorem State.clearDirty_disp :
    (s.clearDirty).disp = s.disp := rfl
@[simp] theorem State.clearDirty_mode :
    (s.clearDirty).mode = s.mode := rfl
@[simp] theorem State.clearDirty_dirty :
    (s.clearDirty).dirty = false := rfl
@[simp] theorem State.clearDirty_keys :
    (s.clearDirty).keys = s.keys := rfl
@[simp] theorem State.clearDirty_variant :
    (s.clearDirty).variant = s.variant := rfl
@[simp] theorem State.clearDirty_config :
    (s.clearDirty).config = s.config := rfl
@[simp] theorem State.clearDirty_haltedThisTick :
    (s.clearDirty).haltedThisTick = s.haltedThisTick := rfl
@[simp] theorem State.clearDirty_sound :
    (s.clearDirty).sound = s.sound := rfl
@[simp] theorem State.clearDirty_batchLeft :
    (s.clearDirty).batchLeft = s.batchLeft := rfl
@[simp] theorem State.clearDirty_ipf :
    (s.clearDirty).ipf = s.ipf := rfl
@[simp] theorem State.clearDirty_speed :
    (s.clearDirty).speed = s.speed := rfl
@[simp] theorem State.clearDirty_tickResult :
    (s.clearDirty).tickResult = s.tickResult := rfl
@[simp] theorem State.clearDirty_faultLog :
    (s.clearDirty).faultLog = s.faultLog := rfl
@[simp] theorem State.clearDirty_rngDraws :
    (s.clearDirty).rngDraws = s.rngDraws := rfl

/-! ### `State.writeKey` -/

@[simp] theorem State.writeKey_v (k : Nibble) (b : Bool) :
    (s.writeKey k b).v = s.v := rfl
@[simp] theorem State.writeKey_pc (k : Nibble) (b : Bool) :
    (s.writeKey k b).pc = s.pc := rfl
@[simp] theorem State.writeKey_i (k : Nibble) (b : Bool) :
    (s.writeKey k b).i = s.i := rfl
@[simp] theorem State.writeKey_stack (k : Nibble) (b : Bool) :
    (s.writeKey k b).stack = s.stack := rfl
@[simp] theorem State.writeKey_sp (k : Nibble) (b : Bool) :
    (s.writeKey k b).sp = s.sp := rfl
@[simp] theorem State.writeKey_dt (k : Nibble) (b : Bool) :
    (s.writeKey k b).dt = s.dt := rfl
@[simp] theorem State.writeKey_st (k : Nibble) (b : Bool) :
    (s.writeKey k b).st = s.st := rfl
@[simp] theorem State.writeKey_mem (k : Nibble) (b : Bool) :
    (s.writeKey k b).mem = s.mem := rfl
@[simp] theorem State.writeKey_disp (k : Nibble) (b : Bool) :
    (s.writeKey k b).disp = s.disp := rfl
@[simp] theorem State.writeKey_mode (k : Nibble) (b : Bool) :
    (s.writeKey k b).mode = s.mode := rfl
@[simp] theorem State.writeKey_dirty (k : Nibble) (b : Bool) :
    (s.writeKey k b).dirty = s.dirty := rfl
@[simp] theorem State.writeKey_keys (k : Nibble) (b : Bool) :
    (s.writeKey k b).keys = s.keys.set k.toNat b k.isLt := rfl
@[simp] theorem State.writeKey_variant (k : Nibble) (b : Bool) :
    (s.writeKey k b).variant = s.variant := rfl
@[simp] theorem State.writeKey_config (k : Nibble) (b : Bool) :
    (s.writeKey k b).config = s.config := rfl
@[simp] theorem State.writeKey_haltedThisTick (k : Nibble) (b : Bool) :
    (s.writeKey k b).haltedThisTick = s.haltedThisTick := rfl
@[simp] theorem State.writeKey_sound (k : Nibble) (b : Bool) :
    (s.writeKey k b).sound = s.sound := rfl
@[simp] theorem State.writeKey_batchLeft (k : Nibble) (b : Bool) :
    (s.writeKey k b).batchLeft = s.batchLeft := rfl
@[simp] theorem State.writeKey_ipf (k : Nibble) (b : Bool) :
    (s.writeKey k b).ipf = s.ipf := rfl
@[simp] theorem State.writeKey_speed (k : Nibble) (b : Bool) :
    (s.writeKey k b).speed = s.speed := rfl
@[simp] theorem State.writeKey_tickResult (k : Nibble) (b : Bool) :
    (s.writeKey k b).tickResult = s.tickResult := rfl
@[simp] theorem State.writeKey_faultLog (k : Nibble) (b : Bool) :
    (s.writeKey k b).faultLog = s.faultLog := rfl
@[simp] theorem State.writeKey_rngDraws (k : Nibble) (b : Bool) :
    (s.writeKey k b).rngDraws = s.rngDraws := rfl

/-! ### `State.setByte` -/

@[simp] theorem State.setByte_v (a : Nat) (b : Byte) :
    (s.setByte a b).v = s.v := rfl
@[simp] theorem State.setByte_pc (a : Nat) (b : Byte) :
    (s.setByte a b).pc = s.pc := rfl
@[simp] theorem State.setByte_i (a : Nat) (b : Byte) :
    (s.setByte a b).i = s.i := rfl
@[simp] theorem State.setByte_stack (a : Nat) (b : Byte) :
    (s.setByte a b).stack = s.stack := rfl
@[simp] theorem State.setByte_sp (a : Nat) (b : Byte) :
    (s.setByte a b).sp = s.sp := rfl
@[simp] theorem State.setByte_dt (a : Nat) (b : Byte) :
    (s.setByte a b).dt = s.dt := rfl
@[simp] theorem State.setByte_st (a : Nat) (b : Byte) :
    (s.setByte a b).st = s.st := rfl
@[simp] theorem State.setByte_mem (a : Nat) (b : Byte) :
    (s.setByte a b).mem = s.mem.write s.config.fontTable a b := rfl
@[simp] theorem State.setByte_disp (a : Nat) (b : Byte) :
    (s.setByte a b).disp = s.disp := rfl
@[simp] theorem State.setByte_mode (a : Nat) (b : Byte) :
    (s.setByte a b).mode = s.mode := rfl
@[simp] theorem State.setByte_dirty (a : Nat) (b : Byte) :
    (s.setByte a b).dirty = s.dirty := rfl
@[simp] theorem State.setByte_keys (a : Nat) (b : Byte) :
    (s.setByte a b).keys = s.keys := rfl
@[simp] theorem State.setByte_variant (a : Nat) (b : Byte) :
    (s.setByte a b).variant = s.variant := rfl
@[simp] theorem State.setByte_config (a : Nat) (b : Byte) :
    (s.setByte a b).config = s.config := rfl
@[simp] theorem State.setByte_haltedThisTick (a : Nat) (b : Byte) :
    (s.setByte a b).haltedThisTick = s.haltedThisTick := rfl
@[simp] theorem State.setByte_sound (a : Nat) (b : Byte) :
    (s.setByte a b).sound = s.sound := rfl
@[simp] theorem State.setByte_batchLeft (a : Nat) (b : Byte) :
    (s.setByte a b).batchLeft = s.batchLeft := rfl
@[simp] theorem State.setByte_ipf (a : Nat) (b : Byte) :
    (s.setByte a b).ipf = s.ipf := rfl
@[simp] theorem State.setByte_speed (a : Nat) (b : Byte) :
    (s.setByte a b).speed = s.speed := rfl
@[simp] theorem State.setByte_tickResult (a : Nat) (b : Byte) :
    (s.setByte a b).tickResult = s.tickResult := rfl
@[simp] theorem State.setByte_faultLog (a : Nat) (b : Byte) :
    (s.setByte a b).faultLog = s.faultLog := rfl
@[simp] theorem State.setByte_rngDraws (a : Nat) (b : Byte) :
    (s.setByte a b).rngDraws = s.rngDraws := rfl

/-! ### `State.load` -/

@[simp] theorem State.load_v (bytes : List Byte) :
    (s.load bytes).v = s.v := rfl
@[simp] theorem State.load_pc (bytes : List Byte) :
    (s.load bytes).pc = s.pc := rfl
@[simp] theorem State.load_i (bytes : List Byte) :
    (s.load bytes).i = s.i := rfl
@[simp] theorem State.load_stack (bytes : List Byte) :
    (s.load bytes).stack = s.stack := rfl
@[simp] theorem State.load_sp (bytes : List Byte) :
    (s.load bytes).sp = s.sp := rfl
@[simp] theorem State.load_dt (bytes : List Byte) :
    (s.load bytes).dt = s.dt := rfl
@[simp] theorem State.load_st (bytes : List Byte) :
    (s.load bytes).st = s.st := rfl
@[simp] theorem State.load_mem (bytes : List Byte) :
    (s.load bytes).mem = s.mem.writeFrom s.config.fontTable programStart (bytes.take maxProgramLen) := rfl
@[simp] theorem State.load_disp (bytes : List Byte) :
    (s.load bytes).disp = s.disp := rfl
@[simp] theorem State.load_mode (bytes : List Byte) :
    (s.load bytes).mode = s.mode := rfl
@[simp] theorem State.load_dirty (bytes : List Byte) :
    (s.load bytes).dirty = s.dirty := rfl
@[simp] theorem State.load_keys (bytes : List Byte) :
    (s.load bytes).keys = s.keys := rfl
@[simp] theorem State.load_variant (bytes : List Byte) :
    (s.load bytes).variant = s.variant := rfl
@[simp] theorem State.load_config (bytes : List Byte) :
    (s.load bytes).config = s.config := rfl
@[simp] theorem State.load_haltedThisTick (bytes : List Byte) :
    (s.load bytes).haltedThisTick = s.haltedThisTick := rfl
@[simp] theorem State.load_sound (bytes : List Byte) :
    (s.load bytes).sound = s.sound := rfl
@[simp] theorem State.load_batchLeft (bytes : List Byte) :
    (s.load bytes).batchLeft = s.batchLeft := rfl
@[simp] theorem State.load_ipf (bytes : List Byte) :
    (s.load bytes).ipf = s.ipf := rfl
@[simp] theorem State.load_speed (bytes : List Byte) :
    (s.load bytes).speed = s.speed := rfl
@[simp] theorem State.load_tickResult (bytes : List Byte) :
    (s.load bytes).tickResult = s.tickResult := rfl
@[simp] theorem State.load_faultLog (bytes : List Byte) :
    (s.load bytes).faultLog = s.faultLog := rfl
@[simp] theorem State.load_rngDraws (bytes : List Byte) :
    (s.load bytes).rngDraws = s.rngDraws := rfl

/-! ### `State.clearProgram` -/

@[simp] theorem State.clearProgram_v :
    (s.clearProgram).v = s.v := rfl
@[simp] theorem State.clearProgram_pc :
    (s.clearProgram).pc = s.pc := rfl
@[simp] theorem State.clearProgram_i :
    (s.clearProgram).i = s.i := rfl
@[simp] theorem State.clearProgram_stack :
    (s.clearProgram).stack = s.stack := rfl
@[simp] theorem State.clearProgram_sp :
    (s.clearProgram).sp = s.sp := rfl
@[simp] theorem State.clearProgram_dt :
    (s.clearProgram).dt = s.dt := rfl
@[simp] theorem State.clearProgram_st :
    (s.clearProgram).st = s.st := rfl
@[simp] theorem State.clearProgram_mem :
    (s.clearProgram).mem = s.mem.filter fun cell => decide (cell.1 < programStart) := rfl
@[simp] theorem State.clearProgram_disp :
    (s.clearProgram).disp = s.disp := rfl
@[simp] theorem State.clearProgram_mode :
    (s.clearProgram).mode = s.mode := rfl
@[simp] theorem State.clearProgram_dirty :
    (s.clearProgram).dirty = s.dirty := rfl
@[simp] theorem State.clearProgram_keys :
    (s.clearProgram).keys = s.keys := rfl
@[simp] theorem State.clearProgram_variant :
    (s.clearProgram).variant = s.variant := rfl
@[simp] theorem State.clearProgram_config :
    (s.clearProgram).config = s.config := rfl
@[simp] theorem State.clearProgram_haltedThisTick :
    (s.clearProgram).haltedThisTick = s.haltedThisTick := rfl
@[simp] theorem State.clearProgram_sound :
    (s.clearProgram).sound = s.sound := rfl
@[simp] theorem State.clearProgram_batchLeft :
    (s.clearProgram).batchLeft = s.batchLeft := rfl
@[simp] theorem State.clearProgram_ipf :
    (s.clearProgram).ipf = s.ipf := rfl
@[simp] theorem State.clearProgram_speed :
    (s.clearProgram).speed = s.speed := rfl
@[simp] theorem State.clearProgram_tickResult :
    (s.clearProgram).tickResult = s.tickResult := rfl
@[simp] theorem State.clearProgram_faultLog :
    (s.clearProgram).faultLog = s.faultLog := rfl
@[simp] theorem State.clearProgram_rngDraws :
    (s.clearProgram).rngDraws = s.rngDraws := rfl

/-! ### The accessors over the updates that do not touch what they read -/

@[simp] theorem State.byteAt_setReg (x : Nibble) (b : Byte) (a' : Nat) :
    (s.setReg x b).byteAt a' = s.byteAt a' := rfl
@[simp] theorem State.pixel_setReg (x : Nibble) (b : Byte) (row col : Nat) :
    (s.setReg x b).pixel row col = s.pixel row col := rfl
@[simp] theorem State.key_setReg (x : Nibble) (b : Byte) (k' : Nibble) :
    (s.setReg x b).key k' = s.key k' := rfl
@[simp] theorem State.reg_advancePc (r : Nibble) :
    (s.advancePc).reg r = s.reg r := rfl
@[simp] theorem State.byteAt_advancePc (a' : Nat) :
    (s.advancePc).byteAt a' = s.byteAt a' := rfl
@[simp] theorem State.pixel_advancePc (row col : Nat) :
    (s.advancePc).pixel row col = s.pixel row col := rfl
@[simp] theorem State.key_advancePc (k' : Nibble) :
    (s.advancePc).key k' = s.key k' := rfl
@[simp] theorem State.reg_jump (w : Word) (r : Nibble) :
    (s.jump w).reg r = s.reg r := rfl
@[simp] theorem State.byteAt_jump (w : Word) (a' : Nat) :
    (s.jump w).byteAt a' = s.byteAt a' := rfl
@[simp] theorem State.pixel_jump (w : Word) (row col : Nat) :
    (s.jump w).pixel row col = s.pixel row col := rfl
@[simp] theorem State.key_jump (w : Word) (k' : Nibble) :
    (s.jump w).key k' = s.key k' := rfl
@[simp] theorem State.reg_setIndex (w : Word) (r : Nibble) :
    (s.setIndex w).reg r = s.reg r := rfl
@[simp] theorem State.byteAt_setIndex (w : Word) (a' : Nat) :
    (s.setIndex w).byteAt a' = s.byteAt a' := rfl
@[simp] theorem State.pixel_setIndex (w : Word) (row col : Nat) :
    (s.setIndex w).pixel row col = s.pixel row col := rfl
@[simp] theorem State.key_setIndex (w : Word) (k' : Nibble) :
    (s.setIndex w).key k' = s.key k' := rfl
@[simp] theorem State.reg_setDisp (d : Display) (r : Nibble) :
    (s.setDisp d).reg r = s.reg r := rfl
@[simp] theorem State.byteAt_setDisp (d : Display) (a' : Nat) :
    (s.setDisp d).byteAt a' = s.byteAt a' := rfl
@[simp] theorem State.key_setDisp (d : Display) (k' : Nibble) :
    (s.setDisp d).key k' = s.key k' := rfl
@[simp] theorem State.reg_setMode (m : Mode) (r : Nibble) :
    (s.setMode m).reg r = s.reg r := rfl
@[simp] theorem State.byteAt_setMode (m : Mode) (a' : Nat) :
    (s.setMode m).byteAt a' = s.byteAt a' := rfl
@[simp] theorem State.pixel_setMode (m : Mode) (row col : Nat) :
    (s.setMode m).pixel row col = s.pixel row col := rfl
@[simp] theorem State.key_setMode (m : Mode) (k' : Nibble) :
    (s.setMode m).key k' = s.key k' := rfl
@[simp] theorem State.reg_setDt (b : Byte) (r : Nibble) :
    (s.setDt b).reg r = s.reg r := rfl
@[simp] theorem State.byteAt_setDt (b : Byte) (a' : Nat) :
    (s.setDt b).byteAt a' = s.byteAt a' := rfl
@[simp] theorem State.pixel_setDt (b : Byte) (row col : Nat) :
    (s.setDt b).pixel row col = s.pixel row col := rfl
@[simp] theorem State.key_setDt (b : Byte) (k' : Nibble) :
    (s.setDt b).key k' = s.key k' := rfl
@[simp] theorem State.reg_setSt (b : Byte) (r : Nibble) :
    (s.setSt b).reg r = s.reg r := rfl
@[simp] theorem State.byteAt_setSt (b : Byte) (a' : Nat) :
    (s.setSt b).byteAt a' = s.byteAt a' := rfl
@[simp] theorem State.pixel_setSt (b : Byte) (row col : Nat) :
    (s.setSt b).pixel row col = s.pixel row col := rfl
@[simp] theorem State.key_setSt (b : Byte) (k' : Nibble) :
    (s.setSt b).key k' = s.key k' := rfl
@[simp] theorem State.reg_push (w : Word) (r : Nibble) :
    (s.push w).reg r = s.reg r := rfl
@[simp] theorem State.byteAt_push (w : Word) (a' : Nat) :
    (s.push w).byteAt a' = s.byteAt a' := rfl
@[simp] theorem State.pixel_push (w : Word) (row col : Nat) :
    (s.push w).pixel row col = s.pixel row col := rfl
@[simp] theorem State.key_push (w : Word) (k' : Nibble) :
    (s.push w).key k' = s.key k' := rfl
@[simp] theorem State.reg_pop (r : Nibble) :
    (s.pop).reg r = s.reg r := rfl
@[simp] theorem State.byteAt_pop (a' : Nat) :
    (s.pop).byteAt a' = s.byteAt a' := rfl
@[simp] theorem State.pixel_pop (row col : Nat) :
    (s.pop).pixel row col = s.pixel row col := rfl
@[simp] theorem State.key_pop (k' : Nibble) :
    (s.pop).key k' = s.key k' := rfl
@[simp] theorem State.reg_raise (e : CoreError) (r : Nibble) :
    (s.raise e).reg r = s.reg r := rfl
@[simp] theorem State.byteAt_raise (e : CoreError) (a' : Nat) :
    (s.raise e).byteAt a' = s.byteAt a' := rfl
@[simp] theorem State.pixel_raise (e : CoreError) (row col : Nat) :
    (s.raise e).pixel row col = s.pixel row col := rfl
@[simp] theorem State.key_raise (e : CoreError) (k' : Nibble) :
    (s.raise e).key k' = s.key k' := rfl
@[simp] theorem State.reg_haltBatch (r : Nibble) :
    (s.haltBatch).reg r = s.reg r := rfl
@[simp] theorem State.byteAt_haltBatch (a' : Nat) :
    (s.haltBatch).byteAt a' = s.byteAt a' := rfl
@[simp] theorem State.pixel_haltBatch (row col : Nat) :
    (s.haltBatch).pixel row col = s.pixel row col := rfl
@[simp] theorem State.key_haltBatch (k' : Nibble) :
    (s.haltBatch).key k' = s.key k' := rfl
@[simp] theorem State.reg_nextDraw (r : Nibble) :
    (s.nextDraw).reg r = s.reg r := rfl
@[simp] theorem State.byteAt_nextDraw (a' : Nat) :
    (s.nextDraw).byteAt a' = s.byteAt a' := rfl
@[simp] theorem State.pixel_nextDraw (row col : Nat) :
    (s.nextDraw).pixel row col = s.pixel row col := rfl
@[simp] theorem State.key_nextDraw (k' : Nibble) :
    (s.nextDraw).key k' = s.key k' := rfl
@[simp] theorem State.reg_countCycle (r : Nibble) :
    (s.countCycle).reg r = s.reg r := rfl
@[simp] theorem State.byteAt_countCycle (a' : Nat) :
    (s.countCycle).byteAt a' = s.byteAt a' := rfl
@[simp] theorem State.pixel_countCycle (row col : Nat) :
    (s.countCycle).pixel row col = s.pixel row col := rfl
@[simp] theorem State.key_countCycle (k' : Nibble) :
    (s.countCycle).key k' = s.key k' := rfl
@[simp] theorem State.reg_startTick (r : Nibble) :
    (s.startTick).reg r = s.reg r := rfl
@[simp] theorem State.byteAt_startTick (a' : Nat) :
    (s.startTick).byteAt a' = s.byteAt a' := rfl
@[simp] theorem State.pixel_startTick (row col : Nat) :
    (s.startTick).pixel row col = s.pixel row col := rfl
@[simp] theorem State.key_startTick (k' : Nibble) :
    (s.startTick).key k' = s.key k' := rfl
@[simp] theorem State.reg_setTickArgs (ipf speed : Nat) (r : Nibble) :
    (s.setTickArgs ipf speed).reg r = s.reg r := rfl
@[simp] theorem State.byteAt_setTickArgs (ipf speed : Nat) (a' : Nat) :
    (s.setTickArgs ipf speed).byteAt a' = s.byteAt a' := rfl
@[simp] theorem State.pixel_setTickArgs (ipf speed : Nat) (row col : Nat) :
    (s.setTickArgs ipf speed).pixel row col = s.pixel row col := rfl
@[simp] theorem State.key_setTickArgs (ipf speed : Nat) (k' : Nibble) :
    (s.setTickArgs ipf speed).key k' = s.key k' := rfl
@[simp] theorem State.reg_clearDirty (r : Nibble) :
    (s.clearDirty).reg r = s.reg r := rfl
@[simp] theorem State.byteAt_clearDirty (a' : Nat) :
    (s.clearDirty).byteAt a' = s.byteAt a' := rfl
@[simp] theorem State.pixel_clearDirty (row col : Nat) :
    (s.clearDirty).pixel row col = s.pixel row col := rfl
@[simp] theorem State.key_clearDirty (k' : Nibble) :
    (s.clearDirty).key k' = s.key k' := rfl
@[simp] theorem State.reg_writeKey (k : Nibble) (b : Bool) (r : Nibble) :
    (s.writeKey k b).reg r = s.reg r := rfl
@[simp] theorem State.byteAt_writeKey (k : Nibble) (b : Bool) (a' : Nat) :
    (s.writeKey k b).byteAt a' = s.byteAt a' := rfl
@[simp] theorem State.pixel_writeKey (k : Nibble) (b : Bool) (row col : Nat) :
    (s.writeKey k b).pixel row col = s.pixel row col := rfl
@[simp] theorem State.reg_setByte (a : Nat) (b : Byte) (r : Nibble) :
    (s.setByte a b).reg r = s.reg r := rfl
@[simp] theorem State.pixel_setByte (a : Nat) (b : Byte) (row col : Nat) :
    (s.setByte a b).pixel row col = s.pixel row col := rfl
@[simp] theorem State.key_setByte (a : Nat) (b : Byte) (k' : Nibble) :
    (s.setByte a b).key k' = s.key k' := rfl
@[simp] theorem State.reg_load (bytes : List Byte) (r : Nibble) :
    (s.load bytes).reg r = s.reg r := rfl
@[simp] theorem State.pixel_load (bytes : List Byte) (row col : Nat) :
    (s.load bytes).pixel row col = s.pixel row col := rfl
@[simp] theorem State.key_load (bytes : List Byte) (k' : Nibble) :
    (s.load bytes).key k' = s.key k' := rfl
@[simp] theorem State.reg_clearProgram (r : Nibble) :
    (s.clearProgram).reg r = s.reg r := rfl
@[simp] theorem State.pixel_clearProgram (row col : Nat) :
    (s.clearProgram).pixel row col = s.pixel row col := rfl
@[simp] theorem State.key_clearProgram (k' : Nibble) :
    (s.clearProgram).key k' = s.key k' := rfl

end Sys2Proof.Machine
end

