-- ==== Sys2Proof/Laws/Registers.lean ====
section
/-! SUPPORT. What the register and flag operations do: read after write, and what else they change. -/

namespace Sys2Proof.Machine

variable (s : State)

/-- A register write is read back, and no other register changes. -/
theorem State.reg_setReg (x : Nibble) (b : Byte) (r : Nibble) :
    (s.setReg x b).reg r = if r = x then b else s.reg r := by
  unfold State.reg State.setReg
  by_cases h : r = x
  · subst h; simp
  · have h' : x.toNat ≠ r.toNat := fun e => h (BitVec.eq_of_toNat_eq e.symm)
    simp [h, h']

@[simp] theorem State.reg_setReg_self (x : Nibble) (b : Byte) : (s.setReg x b).reg x = b := by
  simp [State.reg_setReg]

theorem State.reg_setReg_of_ne {x r : Nibble} (b : Byte) (h : r ≠ x) :
    (s.setReg x b).reg r = s.reg r := by
  simp [State.reg_setReg, h]

/-- A flag write changes VF alone. -/
theorem State.setFlag_eq (b : Bool) : s.setFlag b = s.setReg vf (flagByte b) := rfl

/-- A result with its flag: VF holds the flag, also when VF is the destination (R10, D10). -/
theorem State.reg_setResult (x : Nibble) (r : Byte) (flag : Bool) (q : Nibble) :
    (s.setResult x r flag).reg q =
      if q = vf then flagByte flag else if q = x then r else s.reg q := by
  simp [State.setResult, State.setFlag, State.reg_setReg]

/-- A logic result: VF is cleared last in Baseline only (R105 to R107). -/
theorem State.reg_setLogic (x : Nibble) (r : Byte) (q : Nibble) :
    (s.setLogic x r).reg q =
      if q = vf ∧ s.variant = .baseline then 0 else if q = x then r else s.reg q := by
  unfold State.setLogic State.quirk
  cases h : s.variant <;> simp [quirks, State.reg_setResult, State.reg_setReg, flagByte]

/-- A result with its flag changes the registers only. -/
theorem State.setResult_eq (x : Nibble) (r : Byte) (flag : Bool) :
    s.setResult x r flag = { s with v := (s.setResult x r flag).v } := rfl

/-- A logic result changes the registers only. -/
theorem State.setLogic_eq (x : Nibble) (r : Byte) :
    s.setLogic x r = { s with v := (s.setLogic x r).v } := by
  unfold State.setLogic; split <;> rfl

/-- A list of register writes changes the registers only. -/
theorem State.setRegsFrom_eq (k : Nat) (bs : List Byte) :
    s.setRegsFrom k bs = { s with v := (s.setRegsFrom k bs).v } := by
  induction bs generalizing s k with
  | nil => rfl
  | cons b bs ih =>
    simp only [State.setRegsFrom]
    rw [ih]
    rfl

/-- A list of register writes from register k on: register r takes byte r − k of the list. -/
theorem State.reg_setRegsFrom (k : Nat) (bs : List Byte) (h : k + bs.length ≤ 16) (r : Nibble) :
    (s.setRegsFrom k bs).reg r =
      if k ≤ r.toNat then (bs[r.toNat - k]?).getD (s.reg r) else s.reg r := by
  induction bs generalizing s k with
  | nil => simp [State.setRegsFrom]
  | cons b bs ih =>
    simp only [State.setRegsFrom, List.length_cons] at h ⊢
    rw [ih _ (k + 1) (by omega), State.reg_setReg]
    have hk : (regNumber k).toNat = k := by
      simp only [regNumber, BitVec.toNat_ofNat]; omega
    have e : r = regNumber k ↔ r.toNat = k :=
      ⟨fun e => by rw [e, hk], fun e => BitVec.eq_of_toNat_eq (by rw [hk, e])⟩
    rcases Nat.lt_trichotomy r.toNat k with hlt | heq | hgt
    · have h1 : ¬ k + 1 ≤ r.toNat := by omega
      have h2 : ¬ k ≤ r.toNat := by omega
      have h3 : r.toNat ≠ k := by omega
      simp [h1, h2, e, h3]
    · have h1 : ¬ k + 1 ≤ r.toNat := by omega
      simp [e, heq]
    · have h1 : k + 1 ≤ r.toNat := by omega
      have h2 : k ≤ r.toNat := by omega
      have h3 : r.toNat ≠ k := by omega
      have h4 : r.toNat - k = (r.toNat - (k + 1)) + 1 := by omega
      simp [h1, h2, e, h3, h4]

end Sys2Proof.Machine
end

