-- ==== Sys2Proof/Laws/Display.lean ====
section
/-! SUPPORT. What the raster operations do, pixel by pixel. -/

namespace Sys2Proof.Machine

/-! ## Pixels -/

@[simp] theorem Display.pixel_blank (row col : Nat) : Display.blank.pixel row col = false := by
  unfold Display.pixel Display.row Display.blank
  by_cases h : row < 64 <;> simp [Vector.getD, h]

/-- A pixel outside the buffer reads as off. -/
theorem Display.pixel_of_row_ge (d : Display) {row : Nat} (h : 64 ≤ row) (col : Nat) :
    d.pixel row col = false := by
  unfold Display.pixel Display.row
  simp [Vector.getD, Nat.not_lt.2 h]

theorem Display.pixel_of_col_ge (d : Display) (row : Nat) {col : Nat} (h : 128 ≤ col) :
    d.pixel row col = false :=
  BitVec.getLsbD_of_ge _ _ h

/-- A flip changes its pixel and no other. -/
theorem Display.pixel_flip (d : Display) {row col : Nat} (hr : row < 64) (hc : col < 128)
    (row' col' : Nat) : (d.flip row col).pixel row' col' =
      if row' = row ∧ col' = col then !d.pixel row' col' else d.pixel row' col' := by
  have hrow : (d.flip row col).row row' =
      if row' = row then d.row row ^^^ BitVec.twoPow 128 col else d.row row' := by
    unfold Display.flip Display.row
    by_cases h : row' = row
    · subst h; simp [Vector.getD, hr]
    · by_cases h' : row' < 64 <;> simp [Vector.getD, h', h, Ne.symm h]
  unfold Display.pixel
  rw [hrow]
  by_cases h : row' = row
  · subst h
    by_cases h' : col' = col
    · subst h'; simp [hc]
    · simp [BitVec.getLsbD_twoPow, h', Ne.symm h']
  · simp [h]

/-! ## The scrolls -/

theorem Mode.width_le (m : Mode) : m.width ≤ 128 := by cases m <;> decide

theorem Mode.height_le (m : Mode) : m.height ≤ 64 := by cases m <;> decide

theorem getLsbD_activeColumns {w : Nat} (hw : w ≤ 128) (col : Nat) :
    (activeColumns w).getLsbD col = decide (col < w) := by
  unfold activeColumns
  simp only [BitVec.getLsbD_ushiftRight, BitVec.getLsbD_allOnes]
  congr 1
  simp only [eq_iff_iff]
  omega

/-- The active region takes the new rows; every other pixel is kept. -/
theorem Display.pixel_mapActive (d : Display) (m : Mode) (f : Nat → BitVec 128)
    (row col : Nat) : (d.mapActive m f).pixel row col =
      if row < m.height ∧ col < m.width then (f row).getLsbD col else d.pixel row col := by
  by_cases hr : row < 64
  · have hrow : (d.mapActive m f).row row =
        if row < m.height then replaceActive m.width (d.row row) (f row) else d.row row := by
      have : (d.mapActive m f).row row = (d.mapActive m f)[row] := by
        simp [Display.row, Vector.getD, hr]
      rw [this]
      simp [Display.mapActive]
    unfold Display.pixel
    rw [hrow]
    by_cases h : row < m.height
    · simp only [h, if_true, true_and, replaceActive, BitVec.getLsbD_or, BitVec.getLsbD_and,
        BitVec.getLsbD_not, getLsbD_activeColumns m.width_le]
      by_cases hc : col < m.width
      · simp [hc]
      · by_cases hc' : col < 128
        · simp [hc, hc']
        · simp [hc, hc', BitVec.getLsbD_of_ge _ _ (Nat.not_lt.1 hc')]
    · simp [h]
  · have h64 : 64 ≤ row := Nat.not_lt.1 hr
    have : ¬ row < m.height := by have := m.height_le; omega
    simp [this, Display.pixel_of_row_ge _ h64]

theorem Display.pixel_scrollDown (d : Display) (m : Mode) (n row col : Nat) :
    (d.scrollDown m n).pixel row col =
      if row < m.height ∧ col < m.width then
        (if n ≤ row then d.pixel (row - n) col else false)
      else d.pixel row col := by
  unfold Display.scrollDown
  rw [Display.pixel_mapActive]
  split_ifs <;> simp [Display.pixel]

theorem Display.pixel_scrollRight (d : Display) (m : Mode) (row col : Nat) :
    (d.scrollRight m).pixel row col =
      if row < m.height ∧ col < m.width then
        (if 4 ≤ col then d.pixel row (col - 4) else false)
      else d.pixel row col := by
  unfold Display.scrollRight
  rw [Display.pixel_mapActive]
  have hw := m.width_le
  by_cases h : row < m.height ∧ col < m.width
  · have hc : col < 128 := by omega
    by_cases h4 : 4 ≤ col
    · have : ¬ col < 4 := by omega
      simp [h, h4, this, hc, Display.pixel, -BitVec.getLsbD_eq_getElem]
    · have : col < 4 := by omega
      simp [h, h4, this, hc]
  · rw [if_neg h, if_neg h]

theorem Display.pixel_scrollLeft (d : Display) (m : Mode) (row col : Nat) :
    (d.scrollLeft m).pixel row col =
      if row < m.height ∧ col < m.width then
        (if col + 4 < m.width then d.pixel row (col + 4) else false)
      else d.pixel row col := by
  unfold Display.scrollLeft
  rw [Display.pixel_mapActive]
  by_cases h : row < m.height ∧ col < m.width
  · simp only [h, and_self, if_true, BitVec.getLsbD_ushiftRight, BitVec.getLsbD_and,
      getLsbD_activeColumns m.width_le, Display.pixel, Nat.add_comm 4 col]
    split_ifs <;> simp_all
  · rw [if_neg h, if_neg h]

/-! ## The sprite engine -/

/-- Where a sprite pixel lands lies in the buffer. -/
theorem spriteTarget_lt {clip : Bool} {w h px py row col : Nat} (hw : 0 < w) (hh : 0 < h)
    (e : spriteTarget clip w h px py = some (row, col)) : row < h ∧ col < w := by
  unfold spriteTarget at e
  cases clip
  · simp only [Bool.false_eq_true, if_false, Option.some.injEq, Prod.mk.injEq] at e
    exact ⟨e.1 ▸ Nat.mod_lt _ hh, e.2 ▸ Nat.mod_lt _ hw⟩
  · simp only [if_true, Bool.or_eq_true, decide_eq_true_eq] at e
    split at e
    · cases e
    · next hn =>
      simp only [Option.some.injEq, Prod.mk.injEq] at e
      omega

/-- One bit of a sprite: the pixel it lands on, if the bit is set and has a place, is flipped and noted as a
collision when it was on; no other pixel changes. -/
theorem Canvas.drawBit_spec {clip : Bool} {w h px py : Nat} (hw : 0 < w) (hw' : w ≤ 128)
    (hh : 0 < h) (hh' : h ≤ 64) (bit : Bool) (k : Canvas) (row col : Nat) :
    (k.drawBit clip w h px py bit).disp.pixel row col =
      (if bit = true ∧ spriteTarget clip w h px py = some (row, col) then
        !k.disp.pixel row col else k.disp.pixel row col) ∧
    ((k.drawBit clip w h px py bit).coll = true ↔ k.coll = true ∨
      ∃ row' col' : Nat, bit = true ∧ spriteTarget clip w h px py = some (row', col') ∧
        k.disp.pixel row' col' = true) := by
  unfold Canvas.drawBit
  cases bit
  · simp
  · cases e : spriteTarget clip w h px py with
    | none => simp
    | some t =>
      obtain ⟨r, c⟩ := t
      have := spriteTarget_lt hw hh e
      simp only [Canvas.plot, Display.pixel_flip k.disp (by omega : r < 64) (by omega : c < 128)]
      refine ⟨?_, ?_⟩
      · by_cases hrc : row = r ∧ col = c
        · simp [hrc]
        · have : ¬ (r = row ∧ c = col) := fun h' => hrc ⟨h'.1.symm, h'.2.symm⟩
          simp [hrc, this]
      · simp

end Sys2Proof.Machine
end

