-- ==== Sys2Proof/Laws/Memory.lean ====
section
/-! SUPPORT. What the memory operations do: read after write, the canonical form kept, and the stores of an instruction. -/

namespace Sys2Proof.Machine

variable {g : Glyphs}

/-! ## Read after write -/

theorem Memory.read_insert (m : Memory) (a : Nat) (b : Byte) (a' : Nat) :
    (m.insert a b).read g a' = if a' = a then b else m.read g a' := by
  induction m with
  | nil => simp [Memory.insert, Memory.read]
  | cons cell m ih =>
    obtain ⟨k, c⟩ := cell
    simp only [Memory.insert]
    split
    · simp [Memory.read]
    · split
      · next h => subst h; by_cases h' : a' = a <;> simp [Memory.read, h']
      · next h1 h2 =>
        simp only [Memory.read, ih]
        by_cases h' : a' = k
        · have : a' ≠ a := fun e => h2 (e.symm.trans h')
          simp [h', Ne.symm h2]
        · simp [h']

theorem Memory.read_erase (m : Memory) (a a' : Nat) :
    (m.erase a).read g a' = if a' = a then Memory.background g a else m.read g a' := by
  induction m with
  | nil => by_cases h : a' = a <;> simp [Memory.erase, Memory.read, h]
  | cons cell m ih =>
    obtain ⟨k, c⟩ := cell
    simp only [Memory.erase, ne_eq, decide_not] at ih ⊢
    by_cases hk : k = a
    · subst hk
      by_cases h' : a' = k <;> simp_all [Memory.read]
    · by_cases h' : a' = k
      · subst h'; simp [Memory.read, hk]
      · simp [Memory.read, hk, h', ih]

/-- A write is read back, and every other address reads as before. -/
theorem Memory.read_write (m : Memory) (a : Nat) (b : Byte) (a' : Nat) :
    (m.write g a b).read g a' = if a' = a then b else m.read g a' := by
  unfold Memory.write
  split
  · next h => rw [Memory.read_erase]; simp [h]
  · exact Memory.read_insert m a b a'

/-! ## The canonical form -/

theorem Memory.wfFrom_mono {lo lo' : Nat} (h : lo' ≤ lo) {m : Memory}
    (hm : Memory.wfFrom g lo m = true) : Memory.wfFrom g lo' m = true := by
  cases m with
  | nil => rfl
  | cons cell m =>
    obtain ⟨k, c⟩ := cell
    simp only [Memory.wfFrom, Bool.and_eq_true, decide_eq_true_eq] at hm ⊢
    exact ⟨⟨⟨by omega, hm.1.1.2⟩, hm.1.2⟩, hm.2⟩

theorem Memory.wfFrom_filter {lo : Nat} {m : Memory} (p : Host.Cell → Bool)
    (hm : Memory.wfFrom g lo m = true) : Memory.wfFrom g lo (m.filter p) = true := by
  induction m generalizing lo with
  | nil => rfl
  | cons cell m ih =>
    obtain ⟨k, c⟩ := cell
    simp only [Memory.wfFrom, Bool.and_eq_true, decide_eq_true_eq] at hm
    have := ih hm.2
    simp only [List.filter_cons]
    split
    · simp only [Memory.wfFrom, Bool.and_eq_true, decide_eq_true_eq]
      exact ⟨hm.1, this⟩
    · exact Memory.wfFrom_mono (by omega) this

theorem Memory.wfFrom_insert {lo : Nat} {m : Memory} {a : Nat} {b : Byte} (hlo : lo ≤ a)
    (ha : a < memSize) (hb : b ≠ Memory.background g a) (hm : Memory.wfFrom g lo m = true) :
    Memory.wfFrom g lo (m.insert a b) = true := by
  induction m generalizing lo with
  | nil => simp [Memory.insert, Memory.wfFrom, hlo, ha, hb]
  | cons cell m ih =>
    obtain ⟨k, c⟩ := cell
    simp only [Memory.wfFrom, Bool.and_eq_true, decide_eq_true_eq] at hm
    simp only [Memory.insert]
    split
    · simp only [Memory.wfFrom, Bool.and_eq_true, decide_eq_true_eq]
      exact ⟨⟨⟨hlo, ha⟩, hb⟩, ⟨⟨⟨by omega, hm.1.1.2⟩, hm.1.2⟩, hm.2⟩⟩
    · split
      · next h =>
        subst h
        simp only [Memory.wfFrom, Bool.and_eq_true, decide_eq_true_eq]
        exact ⟨⟨⟨hlo, ha⟩, hb⟩, hm.2⟩
      · simp only [Memory.wfFrom, Bool.and_eq_true, decide_eq_true_eq]
        exact ⟨hm.1, ih (by omega) hm.2⟩

/-- A write inside memory keeps the canonical form. -/
theorem Memory.wf_write {m : Memory} {a : Nat} (b : Byte) (ha : a < memSize)
    (hm : m.wf g = true) : (m.write g a b).wf g = true := by
  unfold Memory.write
  split
  · exact Memory.wfFrom_filter _ hm
  · next h => exact Memory.wfFrom_insert (Nat.zero_le _) ha h hm

/-- A load inside memory keeps the canonical form. -/
theorem Memory.wf_writeFrom {m : Memory} {a : Nat} {bs : List Byte}
    (h : a + bs.length ≤ memSize) (hm : m.wf g = true) : (m.writeFrom g a bs).wf g = true := by
  induction bs generalizing m a with
  | nil => exact hm
  | cons b bs ih =>
    simp only [List.length_cons] at h
    exact ih (by omega) (Memory.wf_write b (by omega) hm)

/-- Clearing the program keeps the canonical form. -/
theorem Memory.wf_filter {m : Memory} (p : Host.Cell → Bool) (hm : m.wf g = true) :
    Memory.wf (m.filter p) g = true :=
  Memory.wfFrom_filter p hm

/-- The memory after construction has the canonical form. -/
theorem Memory.wf_reset : State.reset.mem.wf State.reset.config.fontTable = true := rfl

/-! ## A load, and the program cleared -/

/-- Bytes at consecutive addresses from `b` on: each address takes its byte, the others keep theirs. -/
theorem Memory.read_writeFrom (m : Memory) (b : Nat) (bs : List Byte) (a : Nat) :
    (m.writeFrom g b bs).read g a = if b ≤ a then (bs[a - b]?).getD (m.read g a) else m.read g a := by
  induction bs generalizing m b with
  | nil => simp [Memory.writeFrom]
  | cons x bs ih =>
    simp only [Memory.writeFrom]
    rw [ih, Memory.read_write]
    rcases Nat.lt_trichotomy a b with h | h | h
    · have h1 : ¬ b + 1 ≤ a := by omega
      have h2 : ¬ b ≤ a := by omega
      have h3 : a ≠ b := by omega
      simp [h1, h2, h3]
    · subst h
      have h1 : ¬ a + 1 ≤ a := by omega
      simp [h1]
    · have h1 : b + 1 ≤ a := by omega
      have h2 : b ≤ a := by omega
      have h3 : a ≠ b := by omega
      have h4 : a - b = (a - (b + 1)) + 1 := by omega
      simp [h1, h2, h3, h4]

/-- The entries below an address kept: the addresses from it on read as after construction. -/
theorem Memory.read_filter_lt (m : Memory) (n a : Nat) :
    Memory.read (m.filter fun cell => decide (cell.1 < n)) g a =
      if a < n then m.read g a else Memory.background g a := by
  induction m with
  | nil => simp [Memory.read]
  | cons cell m ih =>
    obtain ⟨k, b⟩ := cell
    rw [List.filter_cons]
    split
    · next hk =>
      simp only [decide_eq_true_eq] at hk
      simp only [Memory.read, ih]
      by_cases e : a = k
      · subst e; simp [hk]
      · simp [e]
    · next hk =>
      simp only [decide_eq_true_eq] at hk
      rw [ih]
      split
      · simp only [Memory.read]; rw [if_neg (by omega)]
      · rfl

/-- Above the font an unlisted address reads as zero. -/
theorem Memory.background_above_font {a : Nat} (h : fontEnd ≤ a) : Memory.background g a = 0 := by
  unfold Memory.background
  have h' : 80 ≤ a := h
  rw [List.getD_eq_default]
  simpa [fontBytes, glyphZero] using h'

/-! ## The store of one byte -/

/-- A store changes memory only. -/
theorem State.memWrite_eq (s : State) (a : Word) (b : Byte) :
    s.memWrite a b = { s with mem := (s.memWrite a b).mem } := by
  unfold State.memWrite; split <;> rfl

/-- What a store does to a byte: the address stored to takes it, unless the address lies in the font and the
policy is not `Write`. -/
theorem State.byteAt_memWrite (s : State) (a : Word) (b : Byte) (a' : Nat) :
    (s.memWrite a b).byteAt a' =
      if a' = a.toNat ∧ (fontEnd ≤ a.toNat ∨ s.config.fontRegionWrite = .write) then b
      else s.byteAt a' := by
  unfold State.memWrite State.byteAt inFont
  split
  · next h =>
    simp only [Bool.and_eq_true, decide_eq_true_eq] at h
    have : ¬ (fontEnd ≤ a.toNat ∨ s.config.fontRegionWrite = .write) := by
      rintro (h' | h')
      · omega
      · exact h.2 h'
    simp [this]
  · next h =>
    simp only [Bool.and_eq_true, decide_eq_true_eq, not_and, not_not] at h
    have : fontEnd ≤ a.toNat ∨ s.config.fontRegionWrite = .write := by
      by_cases h' : a.toNat < fontEnd
      · exact Or.inr (h h')
      · exact Or.inl (by omega)
    simp [this, Memory.read_write]

theorem State.mem_wf_memWrite {s : State} {a : Word} (b : Byte) (ha : a.toNat < memSize)
    (hm : s.mem.wf s.config.fontTable = true) : (s.memWrite a b).mem.wf s.config.fontTable = true := by
  unfold State.memWrite
  split
  · exact hm
  · exact Memory.wf_write b ha hm

/-! ## The stores of an instruction -/

/-- The stores of an instruction change memory only. -/
theorem State.storeCells_eq (s : State) (cells : List (Word × Byte)) :
    s.storeCells cells = { s with mem := (s.storeCells cells).mem } := by
  induction cells generalizing s with
  | nil => rfl
  | cons cell cells ih =>
    obtain ⟨a, b⟩ := cell
    simp only [State.storeCells]
    rw [ih, State.memWrite_eq]

@[simp] theorem State.storeCells_config (s : State) (cells : List (Word × Byte)) :
    (s.storeCells cells).config = s.config := by
  rw [State.storeCells_eq]

@[simp] theorem State.memWrite_config (s : State) (a : Word) (b : Byte) :
    (s.memWrite a b).config = s.config := by
  rw [State.memWrite_eq]

/-- A byte at none of the addresses stored to reads as before. -/
theorem State.byteAt_storeCells_of_notMem (s : State) (cells : List (Word × Byte)) (a' : Nat)
    (h : ∀ cell ∈ cells, cell.1.toNat ≠ a') : (s.storeCells cells).byteAt a' = s.byteAt a' := by
  induction cells generalizing s with
  | nil => rfl
  | cons cell cells ih =>
    obtain ⟨a, b⟩ := cell
    simp only [State.storeCells]
    rw [ih _ fun c hc => h c (List.mem_cons_of_mem _ hc), State.byteAt_memWrite]
    have : a' ≠ a.toNat := (h (a, b) List.mem_cons_self).symm
    simp [this]

/-- With pairwise different addresses, each takes its byte (unless the font policy drops it). -/
theorem State.byteAt_storeCells_of_mem (s : State) (cells : List (Word × Byte)) {a : Word}
    {b : Byte} (hmem : (a, b) ∈ cells) (hd : (cells.map fun c => c.1).Nodup)
    (hw : fontEnd ≤ a.toNat ∨ s.config.fontRegionWrite = .write) :
    (s.storeCells cells).byteAt a.toNat = b := by
  induction cells generalizing s with
  | nil => cases hmem
  | cons cell cells ih =>
    obtain ⟨k, c⟩ := cell
    simp only [List.map_cons, List.nodup_cons, State.storeCells] at hd ⊢
    rcases List.mem_cons.1 hmem with h | h
    · cases h
      rw [State.byteAt_storeCells_of_notMem, State.byteAt_memWrite]
      · simp [hw]
      · intro cell hc e
        exact hd.1 (List.mem_map.2 ⟨cell, hc, BitVec.eq_of_toNat_eq e⟩)
    · exact ih (s.memWrite k c) h hd.2 (by simpa using hw)

/-- A byte of the font keeps its value unless the policy is `Write`. -/
theorem State.byteAt_storeCells_font (s : State) (cells : List (Word × Byte))
    (hp : s.config.fontRegionWrite ≠ .write) {a : Nat} (ha : a < fontEnd) :
    (s.storeCells cells).byteAt a = s.byteAt a := by
  induction cells generalizing s with
  | nil => rfl
  | cons cell cells ih =>
    obtain ⟨k, c⟩ := cell
    simp only [State.storeCells]
    rw [ih _ (by simpa using hp), State.byteAt_memWrite]
    have : ¬ (a = k.toNat ∧ (fontEnd ≤ k.toNat ∨ s.config.fontRegionWrite = .write)) := by
      rintro ⟨h, h' | h'⟩
      · omega
      · exact hp h'
    simp [this]

theorem State.mem_wf_storeCells {s : State} {cells : List (Word × Byte)}
    (h : ∀ cell ∈ cells, cell.1.toNat < memSize) (hm : s.mem.wf s.config.fontTable = true) :
    (s.storeCells cells).mem.wf s.config.fontTable = true := by
  induction cells generalizing s with
  | nil => exact hm
  | cons cell cells ih =>
    obtain ⟨a, b⟩ := cell
    have := ih (s := s.memWrite a b) (fun c hc => h c (List.mem_cons_of_mem _ hc))
      (by simpa using State.mem_wf_memWrite b (h (a, b) List.mem_cons_self) hm)
    simpa [State.storeCells] using this

/-! ## The checks of an instruction -/

/-- A load check that passes: every address lies in memory. -/
theorem loadError_eq_none {addrs : List Word} :
    loadError addrs = none ↔ ∀ a ∈ addrs, a.toNat < memSize := by
  simp [loadError, outsideMemory]

/-- A store check that passes: every address lies in memory, and under `Fault` outside the font. -/
theorem State.storeError_eq_none {s : State} {addrs : List Word} :
    s.storeError addrs = none ↔ (∀ a ∈ addrs, a.toNat < memSize) ∧
      (s.config.fontRegionWrite = .fault → ∀ a ∈ addrs, fontEnd ≤ a.toNat) := by
  unfold State.storeError
  cases h : loadError addrs with
  | some e =>
    simp only [reduceCtorEq, false_iff, not_and]
    intro h'
    rw [loadError_eq_none.2 h'] at h
    cases h
  | none =>
    have := loadError_eq_none.1 h
    by_cases hp : s.config.fontRegionWrite = .fault
    · simp only [hp, if_true, Option.map_eq_none_iff, List.find?_eq_none, inFont, decide_eq_true_eq,
        Nat.not_lt, forall_const]
      exact ⟨fun h' => ⟨this, h'⟩, fun h' => h'.2⟩
    · simpa [hp] using this

/-! ## The addresses I, I + 1, … -/

/-- The addresses of one instruction are pairwise different, since they are fewer than 65536. -/
theorem State.nodup_indexAddrs (s : State) {n : Nat} (h : n ≤ 65536) : (s.indexAddrs n).Nodup := by
  unfold State.indexAddrs
  refine List.Nodup.map_on ?_ List.nodup_range
  intro a ha b hb e
  simp only [List.mem_range] at ha hb
  simp only [State.indexAddr, BitVec.add_right_inj] at e
  have := congrArg BitVec.toNat e
  simp only [BitVec.toNat_ofNat] at this
  omega

@[simp] theorem State.length_indexAddrs (s : State) (n : Nat) : (s.indexAddrs n).length = n := by
  simp [State.indexAddrs]

@[simp] theorem State.length_indexBytes (s : State) (n : Nat) : (s.indexBytes n).length = n := by
  simp [State.indexBytes]

theorem State.mem_indexAddrs {s : State} {n : Nat} {a : Word} :
    a ∈ s.indexAddrs n ↔ ∃ k : Nat, k < n ∧ s.i + BitVec.ofNat 16 k = a := by
  simp [State.indexAddrs, State.indexAddr]

/-- The first address with a property, by its offset. -/
theorem State.find?_indexAddrs {s : State} {n k : Nat} {p : Word → Bool} (hk : k < n)
    (hp : p (s.i + BitVec.ofNat 16 k) = true)
    (hlt : ∀ j : Nat, j < k → p (s.i + BitVec.ofNat 16 j) = false) :
    (s.indexAddrs n).find? p = some (s.i + BitVec.ofNat 16 k) := by
  rw [List.find?_eq_some_iff_getElem]
  refine ⟨hp, k, by simpa using hk, by simp [State.indexAddrs, State.indexAddr], ?_⟩
  intro j hj
  simp [State.indexAddrs, State.indexAddr, hlt j hj]

/-- A list of bytes stored from I on: each address takes its byte, unless the policy drops it. -/
theorem State.byteAt_storeCells_index (s : State) (bs : List Byte) (hn : bs.length ≤ 65536)
    {k : Nat} (hk : k < bs.length)
    (hw : fontEnd ≤ (s.i + BitVec.ofNat 16 k).toNat ∨ s.config.fontRegionWrite = .write) :
    (s.storeCells ((s.indexAddrs bs.length).zip bs)).byteAt (s.i + BitVec.ofNat 16 k).toNat =
      bs[k] := by
  apply State.byteAt_storeCells_of_mem
  · rw [List.mem_iff_getElem]
    exact ⟨k, by simp [hk], by simp [State.indexAddrs, State.indexAddr]⟩
  · have : ((s.indexAddrs bs.length).zip bs).map (fun c => c.1) = s.indexAddrs bs.length := by
      have := List.map_fst_zip (l₁ := s.indexAddrs bs.length) (l₂ := bs) (by simp)
      simpa using this
    rw [this]
    exact s.nodup_indexAddrs hn
  · exact hw

/-- A list of bytes stored from I on: every other address keeps its byte. -/
theorem State.byteAt_storeCells_index_of_ne (s : State) (n : Nat) (bs : List Byte) (a : Nat)
    (ha : ∀ k : Nat, k < n → (s.i + BitVec.ofNat 16 k).toNat ≠ a) :
    (s.storeCells ((s.indexAddrs n).zip bs)).byteAt a = s.byteAt a := by
  apply State.byteAt_storeCells_of_notMem
  intro cell hc
  obtain ⟨k, hk, e⟩ := State.mem_indexAddrs.1 (List.of_mem_zip hc).1
  rw [← e]
  exact ha k hk

end Sys2Proof.Machine
end

