-- ==== Sys2Proof/Laws/Step.lean ====
section
/-! SUPPORT. What the shared operations of an instruction and of the cycle do, each said once: checks before effects, the fetch, the cycle, the step. -/

namespace Sys2Proof.Machine

/-- Every meaning whose check can fail answers one of two states: the error taken, or the effect (R256). -/
theorem State.guarded_cases (s effect : State) (error : Option CoreError) :
    (∃ e, error = some e ∧ s.guarded error effect = s.raise e) ∨
      (error = none ∧ s.guarded error effect = effect) := by
  cases error with
  | none => exact .inr ⟨rfl, rfl⟩
  | some e => exact .inl ⟨e, rfl, rfl⟩

@[simp] theorem State.guarded_none (s effect : State) : s.guarded none effect = effect := rfl

@[simp] theorem State.guarded_some (s effect : State) (e : CoreError) :
    s.guarded (some e) effect = s.raise e := rfl

/-- A conditional skip changes `pc` only. -/
theorem State.skipIf_eq (s : State) (cond : Bool) :
    s.skipIf cond = { s with pc := if cond then s.pc + 2 else s.pc } := by
  unfold State.skipIf; cases cond <;> rfl

/-- The end of a cycle changes the tick's result only, and only a missing one. -/
theorem State.endTick_eq (s : State) :
    s.endTick = { s with
      tickResult := if s.batchLeft = 0 ∧ s.tickResult = none then some .ok else s.tickResult } := by
  unfold State.endTick; split <;> rfl

/-- The fetch reads the two bytes at `pc` (R56, R75). -/
theorem State.fetchWord_eq {s : State} (h : s.pc.toNat ≤ 0x0FFE) :
    s.fetchWord = wordOfBytes (s.byteAt s.pc.toNat) (s.byteAt (s.pc.toNat + 1)) := by
  have : (s.pc + 1).toNat = s.pc.toNat + 1 := by
    rw [BitVec.toNat_add]
    have : (1 : Word).toNat = 1 := rfl
    omega
  unfold State.fetchWord State.memRead
  rw [this]

theorem State.fetchError_eq_none {s : State} : s.fetchError = none ↔ s.pc.toNat ≤ 0x0FFE := by
  unfold State.fetchError
  split <;> simp <;> omega

/-- The cycle of a state whose fetch fails. -/
theorem State.cycle_of_fetchError {s : State} {e : CoreError} (h : s.fetchError = some e) :
    s.cycle = .next (s.countCycle.raise e) := by
  unfold State.cycle; rw [h]

/-- The cycle of a state whose fetch succeeds. -/
theorem State.cycle_of_fetch {s : State} (h : s.pc.toNat ≤ 0x0FFE) :
    s.cycle = afterExecute (s.countCycle.advancePc.execute
      (wordOfBytes (s.byteAt s.pc.toNat) (s.byteAt (s.pc.toNat + 1)))) := by
  unfold State.cycle
  rw [State.fetchError_eq_none.2 h, State.fetchWord_eq h]

theorem State.execute_of_decode {s : State} {op : Word} {i : Instr}
    (h : decode s.variant s.config op = .ok i) : s.execute op = exec i s := by
  unfold State.execute; rw [h]

theorem State.execute_of_reject {s : State} {op : Word} {e : DecodeReject}
    (h : decode s.variant s.config op = .error e) :
    s.execute op = .next (s.raise (.decodeError op s.instrAddr)) := by
  unfold State.execute; rw [h]

/-- Inside a tick a step is one instruction cycle. -/
theorem step_of_inTick {s : State} (h : s.batchLeft ≠ 0) : step s = s.cycle := by
  unfold step State.advance State.atCycle State.betweenTicks
  simp [h]

/-- Between ticks, with a batch to run, a step starts the tick and runs its first cycle. -/
theorem step_of_betweenTicks {s : State} (h : s.batchLeft = 0) (hb : s.ipf * s.speed ≠ 0) :
    step s = s.startTick.cycle := by
  unfold step State.advance State.atCycle State.betweenTicks
  simp only [h, beq_self_eq_true, if_true, State.startTick_batchLeft, beq_iff_eq, hb, if_false]

/-- Between ticks, with a batch of 0, a step is the whole tick (R265). -/
theorem step_of_emptyBatch {s : State} (h : s.batchLeft = 0) (hb : s.ipf * s.speed = 0) :
    step s = .next s.startTick.endTick := by
  unfold step State.advance State.atCycle State.betweenTicks
  simp [h, hb]

/-- A run whose first step answers a next state goes on from it. -/
theorem run_succ {s t : State} (h : step s = .next t) (k : Nat) :
    Sys2Proof.core.run (k + 1) s = Sys2Proof.core.run k t := by
  have : Sys2Proof.core.step s = .next t := h
  simp only [Host.Core.run, this]

/-- What follows the execute part of a cycle, on a next state. -/
@[simp] theorem afterExecute_next (s : State) : afterExecute (.next s) = .next s.endTick := rfl

end Sys2Proof.Machine
end

