-- ==== Sys2Proof/Laws/Exec.lean ====
section
/-! SUPPORT. What an instruction can do, said once for all 40: the one inversion lemma of `exec` (`exec_effect`), which the whole-machine proofs split instead of unfolding the meanings. -/

namespace Sys2Proof.Machine

open Sys2Proof

/-- The shape of the state after an instruction that answers a next state: which fields it may write. -/
def Effect : Instr → State → State → Prop
  | .cls, s, t | .scd _, s, t | .scr, s, t | .scl, s, t =>
    t = { s with disp := t.disp, dirty := true }
  | .low, s, t => t = { s with mode := .low, dirty := true }
  | .high, s, t => t = { s with mode := .high, dirty := true }
  | .ret, s, t => (∃ e, t = s.raise e) ∨
    (s.sp ≠ 0 ∧ t = { s with sp := s.sp - 1, pc := s.top })
  | .call nnn, s, t => (∃ e, t = s.raise e) ∨
    (s.sp ≠ 15 ∧ t = { s with
      stack := s.stack.set s.sp.val s.pc s.sp.isLt, sp := s.sp + 1, pc := zextAddr nnn })
  | .exit, s, t => t = { s with haltedThisTick := true, batchLeft := 0 }
  | .jp _, s, t | .jpV0 _, s, t | .seImm _ _, s, t | .sneImm _ _, s, t | .seReg _ _, s, t
  | .sneReg _ _, s, t | .skp _, s, t | .sknp _, s, t => t = { s with pc := t.pc }
  | .ldImm _ _, s, t | .addImm _ _, s, t | .ldReg _ _, s, t | .or _ _, s, t | .and _ _, s, t
  | .xor _ _, s, t | .addReg _ _, s, t | .sub _ _, s, t | .shr _ _, s, t | .subn _ _, s, t
  | .shl _ _, s, t | .ldVxDt _, s, t => t = { s with v := t.v }
  | .ldVxK _, s, t => t = { s with v := t.v } ∨ t = { s with pc := s.pc - 2 }
  | .rnd _ _, s, t => t = { s with v := t.v, rngDraws := s.rngDraws + 1 }
  | .ldI _, s, t | .addIVx _, s, t | .ldFVx _, s, t => t = { s with i := t.i }
  | .ldBVx x, s, t => (∃ e, t = s.raise e) ∨
    (s.storeError (s.indexAddrs 3) = none ∧ t = { s with
      mem := (s.storeCells ((s.indexAddrs 3).zip (bcdDigits (s.reg x)))).mem })
  | .ldMemVx x, s, t => (∃ e, t = s.raise e) ∨
    (s.storeError (s.indexAddrs (x.toNat + 1)) = none ∧ t = { s with
      mem := (s.storeCells ((s.indexAddrs (x.toNat + 1)).zip (s.regsThrough x))).mem,
      i := s.indexAfterBulk x })
  | .ldVxMem x, s, t => (∃ e, t = s.raise e) ∨
    (loadError (s.indexAddrs (x.toNat + 1)) = none ∧ t = { s with
      v := (s.setRegsFrom 0 (s.indexBytes (x.toNat + 1))).v, i := s.indexAfterBulk x })
  | .drw _ _ n, s, t => (∃ e, t = s.raise e) ∨
    (loadError (s.indexAddrs n.toNat) = none ∧
      t = { s with v := t.v, disp := t.disp, dirty := true })
  | .ldDtVx x, s, t => t = { s with dt := s.reg x }
  | .ldStVx x, s, t => t = { s with st := s.reg x }

/-- A guarded meaning: the error it raised, or its check passed and it had its effect. -/
theorem guarded_effect {s t effect : State} {error : Option CoreError}
    (h : (Host.Outcome.next (s.guarded error effect) : Host.Outcome State Fault Refusal) = .next t) :
    (∃ e, t = s.raise e) ∨ (error = none ∧ t = effect) := by
  cases h
  rcases s.guarded_cases effect error with ⟨e, -, h⟩ | ⟨hn, h⟩
  · exact .inl ⟨e, h⟩
  · exact .inr ⟨hn, h⟩

/-- Every instruction that answers a next state has the effect of its shape. -/
theorem exec_effect {i : Instr} {s t : State} (h : exec i s = .next t) : Effect i s t := by
  cases i
  case ret =>
    refine (guarded_effect h).imp_right fun ⟨hn, ht⟩ => ⟨?_, ht⟩
    intro e
    simp [State.retError, e] at hn
  case call nnn =>
    refine (guarded_effect h).imp_right fun ⟨hn, ht⟩ => ⟨?_, ht⟩
    intro e
    simp [State.callError, e] at hn
  case ldBVx x =>
    refine (guarded_effect h).imp_right fun ⟨hn, ht⟩ => ⟨hn, ?_⟩
    rw [ht, State.storeCells_eq]
  case ldMemVx x =>
    refine (guarded_effect h).imp_right fun ⟨hn, ht⟩ => ⟨hn, ?_⟩
    rw [ht, State.storeCells_eq]
    rfl
  case ldVxMem x =>
    refine (guarded_effect h).imp_right fun ⟨hn, ht⟩ => ⟨hn, ?_⟩
    rw [ht, State.setRegsFrom_eq]
    rfl
  case drw x y n =>
    refine (guarded_effect h).imp_right fun ⟨hn, ht⟩ => ⟨hn, ?_⟩
    rw [ht]
    rfl
  case ldVxK x =>
    simp only [exec, execLdVxK] at h
    split at h
    · cases h; exact .inl rfl
    · cases h; exact .inr rfl
  case or x y => cases h; exact State.setLogic_eq _ _ _
  case and x y => cases h; exact State.setLogic_eq _ _ _
  case xor x y => cases h; exact State.setLogic_eq _ _ _
  case seImm x nn => cases h; simp only [Effect, State.skipIf_eq]
  case sneImm x nn => cases h; simp only [Effect, State.skipIf_eq]
  case seReg x y => cases h; simp only [Effect, State.skipIf_eq]
  case sneReg x y => cases h; simp only [Effect, State.skipIf_eq]
  case skp x => cases h; simp only [Effect, State.skipIf_eq]
  case sknp x => cases h; simp only [Effect, State.skipIf_eq]
  all_goals cases h; rfl

end Sys2Proof.Machine
end

