-- ==== Sys2Proof/Laws/PerInstr.lean ====
section
/-! SUPPORT. Per-instruction laws. Family `TableRow`: an instruction's word has the fixed bits its row of spec/opcode_table.json gives it, for every value of its operands. -/

namespace Sys2Proof.Laws

open Sys2Proof

/-- The word of `i` matches its row: `word &&& mask = match`. -/
def TableRow.Statement (i : Instr) : Prop :=
  encode i &&& (tableRow i).mask = (tableRow i).pattern

theorem TableRow.cls : TableRow.Statement .cls := rfl
theorem TableRow.ret : TableRow.Statement .ret := rfl
theorem TableRow.scd (n : Nibble) : TableRow.Statement (.scd n) := by
  unfold TableRow.Statement; revert n; decide
theorem TableRow.scr : TableRow.Statement .scr := rfl
theorem TableRow.scl : TableRow.Statement .scl := rfl
theorem TableRow.exit : TableRow.Statement .exit := rfl
theorem TableRow.low : TableRow.Statement .low := rfl
theorem TableRow.high : TableRow.Statement .high := rfl
theorem TableRow.jp (nnn : Addr12) : TableRow.Statement (.jp nnn) := wordNNN_and_F000 _ _
theorem TableRow.call (nnn : Addr12) : TableRow.Statement (.call nnn) := wordNNN_and_F000 _ _
theorem TableRow.seImm (x : Nibble) (nn : Byte) : TableRow.Statement (.seImm x nn) :=
    wordXNN_and_F000 _ _ _
theorem TableRow.sneImm (x : Nibble) (nn : Byte) : TableRow.Statement (.sneImm x nn) :=
    wordXNN_and_F000 _ _ _
theorem TableRow.seReg (x : Nibble) (y : Nibble) : TableRow.Statement (.seReg x y) :=
    wordXYN_and_F00F _ _ _ _
theorem TableRow.ldImm (x : Nibble) (nn : Byte) : TableRow.Statement (.ldImm x nn) :=
    wordXNN_and_F000 _ _ _
theorem TableRow.addImm (x : Nibble) (nn : Byte) : TableRow.Statement (.addImm x nn) :=
    wordXNN_and_F000 _ _ _
theorem TableRow.ldReg (x : Nibble) (y : Nibble) : TableRow.Statement (.ldReg x y) :=
    wordXYN_and_F00F _ _ _ _
theorem TableRow.or (x : Nibble) (y : Nibble) : TableRow.Statement (.or x y) :=
    wordXYN_and_F00F _ _ _ _
theorem TableRow.and (x : Nibble) (y : Nibble) : TableRow.Statement (.and x y) :=
    wordXYN_and_F00F _ _ _ _
theorem TableRow.xor (x : Nibble) (y : Nibble) : TableRow.Statement (.xor x y) :=
    wordXYN_and_F00F _ _ _ _
theorem TableRow.addReg (x : Nibble) (y : Nibble) : TableRow.Statement (.addReg x y) :=
    wordXYN_and_F00F _ _ _ _
theorem TableRow.sub (x : Nibble) (y : Nibble) : TableRow.Statement (.sub x y) :=
    wordXYN_and_F00F _ _ _ _
theorem TableRow.shr (x : Nibble) (y : Nibble) : TableRow.Statement (.shr x y) :=
    wordXYN_and_F00F _ _ _ _
theorem TableRow.subn (x : Nibble) (y : Nibble) : TableRow.Statement (.subn x y) :=
    wordXYN_and_F00F _ _ _ _
theorem TableRow.shl (x : Nibble) (y : Nibble) : TableRow.Statement (.shl x y) :=
    wordXYN_and_F00F _ _ _ _
theorem TableRow.sneReg (x : Nibble) (y : Nibble) : TableRow.Statement (.sneReg x y) :=
    wordXYN_and_F00F _ _ _ _
theorem TableRow.ldI (nnn : Addr12) : TableRow.Statement (.ldI nnn) := wordNNN_and_F000 _ _
theorem TableRow.jpV0 (nnn : Addr12) : TableRow.Statement (.jpV0 nnn) := wordNNN_and_F000 _ _
theorem TableRow.rnd (x : Nibble) (nn : Byte) : TableRow.Statement (.rnd x nn) :=
    wordXNN_and_F000 _ _ _
theorem TableRow.drw (x : Nibble) (y : Nibble) (n : Nibble) : TableRow.Statement (.drw x y n) :=
    wordXYN_and_F000 _ _ _ _
theorem TableRow.skp (x : Nibble) : TableRow.Statement (.skp x) := wordXNN_and_F0FF _ _ _
theorem TableRow.sknp (x : Nibble) : TableRow.Statement (.sknp x) := wordXNN_and_F0FF _ _ _
theorem TableRow.ldVxDt (x : Nibble) : TableRow.Statement (.ldVxDt x) := wordXNN_and_F0FF _ _ _
theorem TableRow.ldVxK (x : Nibble) : TableRow.Statement (.ldVxK x) := wordXNN_and_F0FF _ _ _
theorem TableRow.ldDtVx (x : Nibble) : TableRow.Statement (.ldDtVx x) := wordXNN_and_F0FF _ _ _
theorem TableRow.ldStVx (x : Nibble) : TableRow.Statement (.ldStVx x) := wordXNN_and_F0FF _ _ _
theorem TableRow.addIVx (x : Nibble) : TableRow.Statement (.addIVx x) := wordXNN_and_F0FF _ _ _
theorem TableRow.ldFVx (x : Nibble) : TableRow.Statement (.ldFVx x) := wordXNN_and_F0FF _ _ _
theorem TableRow.ldBVx (x : Nibble) : TableRow.Statement (.ldBVx x) := wordXNN_and_F0FF _ _ _
theorem TableRow.ldMemVx (x : Nibble) : TableRow.Statement (.ldMemVx x) := wordXNN_and_F0FF _ _ _
theorem TableRow.ldVxMem (x : Nibble) : TableRow.Statement (.ldVxMem x) := wordXNN_and_F0FF _ _ _

end Sys2Proof.Laws
end

