-- ==== Sys2Proof/Laws/Sprite.lean ====
section
/-! SUPPORT. What a draw does to the buffer (44_raster.md rule R211): it flips the pixels its sprite covers, each once, and notes whether one of them was on. -/

namespace Sys2Proof.Machine

/-- From canvas `k` to canvas `k'`, exactly the pixels of `P` are flipped, and a collision is noted if one of
them was on. -/
def Flipped (k k' : Canvas) (P : Nat → Nat → Prop) : Prop :=
  (∀ row col : Nat,
    (P row col → k'.disp.pixel row col = !k.disp.pixel row col) ∧
    (¬ P row col → k'.disp.pixel row col = k.disp.pixel row col)) ∧
  (k'.coll = true ↔ k.coll = true ∨ ∃ row col : Nat, P row col ∧ k.disp.pixel row col = true)

theorem Flipped.refl (k : Canvas) : Flipped k k (fun _ _ => False) := by simp [Flipped]

theorem Flipped.congr {k k' : Canvas} {P Q : Nat → Nat → Prop} (h : Flipped k k' P)
    (e : ∀ row col : Nat, P row col ↔ Q row col) : Flipped k k' Q := by
  have : P = Q := by funext row col; exact propext (e row col)
  exact this ▸ h

/-- Two flips of disjoint sets of pixels, one after the other, flip both. -/
theorem Flipped.comp {k k' k'' : Canvas} {P Q : Nat → Nat → Prop} (h1 : Flipped k k' P)
    (h2 : Flipped k' k'' Q) (hd : ∀ row col : Nat, P row col → ¬ Q row col) :
    Flipped k k'' (fun row col => P row col ∨ Q row col) := by
  refine ⟨?_, ?_⟩
  · intro row col
    have a := h1.1 row col
    have b := h2.1 row col
    have d := hd row col
    by_cases hp : P row col <;> by_cases hq : Q row col <;> simp_all
  · rw [h2.2, h1.2]
    constructor
    · rintro ((h | ⟨r, c, hp, h⟩) | ⟨r, c, hp, h⟩)
      · exact .inl h
      · exact .inr ⟨r, c, .inl hp, h⟩
      · refine .inr ⟨r, c, .inr hp, ?_⟩
        rw [← (h1.1 r c).2 (fun h' => hd _ _ h' hp)]
        exact h
    · rintro (h | ⟨r, c, hp | hp, h⟩)
      · exact .inl (.inl h)
      · exact .inl (.inr ⟨r, c, hp, h⟩)
      · refine .inr ⟨r, c, hp, ?_⟩
        rw [(h1.1 r c).2 (fun h' => hd _ _ h' hp)]
        exact h

/-- Two sprite positions, less than the region's width and height apart, that land on one pixel are the same
position. -/
theorem spriteTarget_inj {clip : Bool} {w h px py px' py' row col : Nat}
    (h1 : spriteTarget clip w h px py = some (row, col))
    (h2 : spriteTarget clip w h px' py' = some (row, col))
    (hx : px < px' + w ∧ px' < px + w) (hy : py < py' + h ∧ py' < py + h) :
    px = px' ∧ py = py' := by
  unfold spriteTarget at h1 h2
  cases clip
  · simp only [Bool.false_eq_true, if_false, Option.some.injEq, Prod.mk.injEq] at h1 h2
    have mod_inj : ∀ {a b m : Nat}, a % m = b % m → a < b + m → b < a + m → a = b := by
      intro a b m e hab hba
      rcases Nat.le_total a b with hle | hle
      · have := Nat.eq_zero_of_dvd_of_lt ((Nat.modEq_iff_dvd' hle).1 e) (by omega)
        omega
      · have := Nat.eq_zero_of_dvd_of_lt ((Nat.modEq_iff_dvd' hle).1 e.symm) (by omega)
        omega
    exact ⟨mod_inj (h1.2.trans h2.2.symm) hx.1 hx.2, mod_inj (h1.1.trans h2.1.symm) hy.1 hy.2⟩
  · simp only [if_true] at h1 h2
    split at h1 <;> split at h2 <;> simp_all

/-- One bit of a sprite. -/
theorem Canvas.flipped_drawBit {clip : Bool} {w h : Nat} (px py : Nat) (hw : 0 < w)
    (hw' : w ≤ 128) (hh : 0 < h) (hh' : h ≤ 64) (bit : Bool) (k : Canvas) :
    Flipped k (k.drawBit clip w h px py bit)
      (fun row col => bit = true ∧ spriteTarget clip w h px py = some (row, col)) := by
  have := Canvas.drawBit_spec (clip := clip) (px := px) (py := py) hw hw' hh hh' bit k
  refine ⟨?_, ?_⟩
  · intro row col
    rw [(this row col).1]
    constructor <;> intro h' <;> simp [h']
  · rw [(this 0 0).2]
    simp [and_assoc]

/-- The first `n` bits of a sprite byte. -/
theorem Canvas.flipped_drawBits {clip : Bool} {w h : Nat} (x0 py : Nat) (hw : 8 ≤ w)
    (hw' : w ≤ 128) (hh : 16 ≤ h) (hh' : h ≤ 64) (b : Byte) (k : Canvas) (n : Nat) (hn : n ≤ 8) :
    Flipped k
      ((List.range n).foldl
        (fun k c => k.drawBit clip w h (x0 + c) py (b.getLsbD (7 - c))) k)
      (fun row col => ∃ c : Nat, c < n ∧ b.getLsbD (7 - c) = true ∧
        spriteTarget clip w h (x0 + c) py = some (row, col)) := by
  induction n with
  | zero => simpa using Flipped.refl k
  | succ n ih =>
    rw [List.range_succ, List.foldl_append]
    simp only [List.foldl_cons, List.foldl_nil]
    refine ((ih (by omega)).comp
      (Canvas.flipped_drawBit (x0 + n) py (by omega) hw' (by omega) hh' _ _) ?_).congr ?_
    · rintro row col ⟨c, hc, hb, ht⟩ ⟨hb', ht'⟩
      have := spriteTarget_inj ht ht' (by omega) (by omega)
      omega
    · intro row col
      constructor
      · rintro (⟨c, hc, h'⟩ | h')
        · exact ⟨c, by omega, h'⟩
        · exact ⟨n, by omega, h'⟩
      · rintro ⟨c, hc, h'⟩
        by_cases e : c = n
        · subst e; exact .inr h'
        · exact .inl ⟨c, by omega, h'⟩

/-- The bytes of a sprite, at most 16 rows of them. -/
theorem Canvas.flipped_drawBytes {clip : Bool} {w h : Nat} (x0 py : Nat) (hw : 8 ≤ w)
    (hw' : w ≤ 128) (hh : 16 ≤ h) (hh' : h ≤ 64) (bs : List Byte) (hl : bs.length ≤ 16)
    (k : Canvas) :
    Flipped k (Canvas.drawBytes clip w h x0 py bs k)
      (fun row col => ∃ (r c : Nat) (hr : r < bs.length), c < 8 ∧ bs[r].getLsbD (7 - c) = true ∧
        spriteTarget clip w h (x0 + c) (py + r) = some (row, col)) := by
  induction bs generalizing py k with
  | nil => exact (Flipped.refl k).congr (by simp)
  | cons b bs ih =>
    simp only [Canvas.drawBytes]
    simp only [List.length_cons] at hl
    refine ((Canvas.flipped_drawBits x0 py hw hw' hh hh' b k 8 (by omega)).comp
      (ih (py + 1) (by omega) _) ?_).congr ?_
    · rintro row col ⟨c, hc, hb, ht⟩ ⟨r', c', hr', hc', hb', ht'⟩
      have := spriteTarget_inj ht ht' (by omega) (by omega)
      omega
    · intro row col
      constructor
      · rintro (⟨c, hc, hb, ht⟩ | ⟨r, c, hr, hc, hb, ht⟩)
        · exact ⟨0, c, by simp, hc, by simpa using hb, by simpa using ht⟩
        · exact ⟨r + 1, c, by simpa using hr, hc, by simpa using hb, by
            rw [show py + (r + 1) = py + 1 + r by omega]; exact ht⟩
      · rintro ⟨r, c, hr, hc, hb, ht⟩
        cases r with
        | zero => exact .inl ⟨c, hc, by simpa using hb, by simpa using ht⟩
        | succ r =>
          exact .inr ⟨r, c, by simpa using hr, hc, by simpa using hb, by
            rw [show py + 1 + r = py + (r + 1) by omega]; exact ht⟩

/-- The draw of a state: its sprite's pixels, the start wrapped into the active region. -/
theorem State.flipped_drawSprite (s : State) (x y n : Nibble) :
    Flipped { disp := s.disp, coll := false } (s.drawSprite x y (s.indexBytes n.toNat))
      (fun row col => ∃ r c : Nat, r < n.toNat ∧ c < 8 ∧
        (s.memRead (s.i + BitVec.ofNat 16 r)).getLsbD (7 - c) = true ∧
        spriteTarget s.quirk.clipsAtEdge s.mode.width s.mode.height
          ((s.reg x).toNat % s.mode.width + c) ((s.reg y).toNat % s.mode.height + r) =
            some (row, col)) := by
  have hw : 64 ≤ s.mode.width := by cases s.mode <;> decide
  have hh : 32 ≤ s.mode.height := by cases s.mode <;> decide
  have hn := n.isLt
  refine (Canvas.flipped_drawBytes _ _ (by omega) s.mode.width_le (by omega) s.mode.height_le
    (s.indexBytes n.toNat) (by simp; omega) _).congr ?_
  intro row col
  constructor
  · rintro ⟨r, c, hr, hc, hb, ht⟩
    exact ⟨r, c, by simpa using hr, hc, by
      simpa [State.indexBytes, State.indexAddrs, State.indexAddr] using hb, ht⟩
  · rintro ⟨r, c, hr, hc, hb, ht⟩
    exact ⟨r, c, by simpa using hr, hc, by
      simpa [State.indexBytes, State.indexAddrs, State.indexAddr] using hb, ht⟩

end Sys2Proof.Machine
end

