-- ==== Sys2Proof/Tests/Slice0.lean ====
section
/-! SUPPORT. The model's own tests: words decoded, the vectors of spec/95_test_vectors.md, and for each obligation with hypotheses a state that meets them. -/

namespace Sys2Proof.Tests

open Sys2Proof Sys2Proof.Machine

set_option Elab.async false

/-! ## Small states -/

/-- A constructed machine inside a tick, its sound signal given, two cycles of the batch left. -/
def inTick (v : Variant) : State :=
  { State.construct v Config.hardware with batchLeft := 2, sound := some .pause }

def base : State := inTick .baseline
def ext : State := inTick .extended
def alt : State := inTick .extendedAlt

/-- The state with registers set. -/
def withRegs (s : State) (rs : List (Nibble × Byte)) : State :=
  rs.foldl (fun s r => s.setReg r.1 r.2) s

/-- The state with bytes at consecutive addresses. -/
def withBytes (s : State) (a : Nat) (bs : List Byte) : State :=
  { s with mem := s.mem.writeFrom s.config.fontTable a bs }

/-- The state with pixels flipped. -/
def withPixels (s : State) (ps : List (Nat × Nat)) : State :=
  { s with disp := ps.foldl (fun d p => d.flip p.1 p.2) s.disp }

/-- The pixels that are on, row by row (the vectors' "on"). -/
def pixelsOn (s : State) : List (Nat × Nat) :=
  (List.range 64).flatMap fun r =>
    if s.disp.row r = 0 then []
    else ((List.range 128).filter fun c => s.pixel r c).map fun c => (r, c)

/-- What a test looks at after one step. -/
def seeStep {α : Type} (s : State) (f : State → α) : Option α :=
  match step s with
  | .next t => some (f t)
  | .fault _ => none
  | .refused _ => none

/-- What a test looks at after one step that runs the word `w`, placed at `pc`. -/
def see {α : Type} (w : Nat) (s : State) (f : State → α) : Option α :=
  seeStep (s.withFetchWord 16 w) f

/-- The bytes of memory from an address on. -/
def bytesFrom (s : State) (a n : Nat) : List Byte := (List.range n).map fun k => s.byteAt (a + k)

/-- The error a tick ended with. -/
def errorOf (s : State) : Option TickResult := s.tickResult

/-! ## Well-formedness (R77) -/

theorem test_wf_scd_not_in_baseline :
    (Instr.scd 4).wellFormed .baseline Config.hardware = false ∧
    decode .baseline Config.hardware 0x00C4 = .error (.notInVariant 0x00C4) := by decide
theorem test_wf_scr_not_in_baseline :
    Instr.scr.wellFormed .baseline Config.hardware = false ∧
    decode .baseline Config.hardware 0x00FB = .error (.notInVariant 0x00FB) := by decide
theorem test_wf_scl_not_in_baseline :
    Instr.scl.wellFormed .baseline Config.hardware = false ∧
    decode .baseline Config.hardware 0x00FC = .error (.notInVariant 0x00FC) := by decide
theorem test_wf_low_not_in_baseline :
    Instr.low.wellFormed .baseline Config.hardware = false ∧
    decode .baseline Config.hardware 0x00FE = .error (.notInVariant 0x00FE) := by decide
theorem test_wf_high_not_in_baseline :
    Instr.high.wellFormed .baseline Config.hardware = false ∧
    decode .baseline Config.hardware 0x00FF = .error (.notInVariant 0x00FF) := by decide
/-- With `EXTENDED_OPCODES_IN_BASELINE` true, Baseline decodes them (R6, R77). -/
theorem test_wf_option_opens_baseline :
    decode .baseline { Config.hardware with extendedOpcodesInBaseline := true } 0x00C4 =
      .ok (.scd 4) := by decide

/-! ## Decoding: words written out from the patterns of R73 and R76 -/

theorem test_decode_system :
    decodeTableWord 16 0x00E0 = some .cls ∧ decodeTableWord 16 0x00EE = some .ret ∧
    decodeTableWord 16 0x00C4 = some (.scd 4) ∧ decodeTableWord 16 0x00FB = some .scr ∧
    decodeTableWord 16 0x00FC = some .scl ∧ decodeTableWord 16 0x00FD = some .exit ∧
    decodeTableWord 16 0x00FE = some .low ∧ decodeTableWord 16 0x00FF = some .high := by decide
theorem test_decode_address :
    decodeTableWord 16 0x1FFE = some (.jp 0xFFE) ∧ decodeTableWord 16 0x2301 = some (.call 0x301) ∧
    decodeTableWord 16 0xA123 = some (.ldI 0x123) ∧
    decodeTableWord 16 0xB302 = some (.jpV0 0x302) := by decide
theorem test_decode_immediate :
    decodeTableWord 16 0x3105 = some (.seImm 0x1 0x05) ∧
    decodeTableWord 16 0x4A15 = some (.sneImm 0xA 0x15) ∧
    decodeTableWord 16 0x6A02 = some (.ldImm 0xA 0x02) ∧
    decodeTableWord 16 0x71FF = some (.addImm 0x1 0xFF) ∧
    decodeTableWord 16 0xC10F = some (.rnd 0x1 0x0F) := by decide
theorem test_decode_two_registers :
    decodeTableWord 16 0x5120 = some (.seReg 0x1 0x2) ∧
    decodeTableWord 16 0x9120 = some (.sneReg 0x1 0x2) ∧
    decodeTableWord 16 0x8120 = some (.ldReg 0x1 0x2) ∧
    decodeTableWord 16 0x8121 = some (.or 0x1 0x2) ∧
    decodeTableWord 16 0x8122 = some (.and 0x1 0x2) ∧
    decodeTableWord 16 0x8113 = some (.xor 0x1 0x1) ∧
    decodeTableWord 16 0x8AB4 = some (.addReg 0xA 0xB) ∧
    decodeTableWord 16 0x8125 = some (.sub 0x1 0x2) ∧
    decodeTableWord 16 0x8126 = some (.shr 0x1 0x2) ∧
    decodeTableWord 16 0x8127 = some (.subn 0x1 0x2) ∧
    decodeTableWord 16 0x812E = some (.shl 0x1 0x2) ∧
    decodeTableWord 16 0xD3A7 = some (.drw 0x3 0xA 0x7) := by decide
theorem test_decode_one_register :
    decodeTableWord 16 0xE19E = some (.skp 0x1) ∧ decodeTableWord 16 0xE1A1 = some (.sknp 0x1) ∧
    decodeTableWord 16 0xF207 = some (.ldVxDt 0x2) ∧
    decodeTableWord 16 0xF30A = some (.ldVxK 0x3) ∧
    decodeTableWord 16 0xF115 = some (.ldDtVx 0x1) ∧
    decodeTableWord 16 0xF118 = some (.ldStVx 0x1) ∧
    decodeTableWord 16 0xF11E = some (.addIVx 0x1) ∧
    decodeTableWord 16 0xF129 = some (.ldFVx 0x1) ∧
    decodeTableWord 16 0xF133 = some (.ldBVx 0x1) ∧
    decodeTableWord 16 0xF255 = some (.ldMemVx 0x2) ∧
    decodeTableWord 16 0xF265 = some (.ldVxMem 0x2) := by decide
/-- Vectors CF23, CF14, AL26, CF18, ME17 and the all-zero word: not instructions (R78). -/
theorem test_decode_rejects :
    decodeTableWord 16 0x0123 = none ∧ decodeTableWord 16 0x5121 = none ∧
    decodeTableWord 16 0x8128 = none ∧ decodeTableWord 16 0xE1FF = none ∧
    decodeTableWord 16 0xF130 = none ∧ decodeTableWord 16 0x0000 = none ∧
    decodeBytes .extended Config.hardware [0x00] = .error .truncated := by decide
/-- Lines of the programs of part L3: P2's `ADD V0, 0xFF`, P3's `DRW V0, V1, 1`, P7's `LD V2, K`. -/
theorem test_assemble :
    assemble ⟨.ADD, [.reg 0, .num 0xFF]⟩ = some 0x70FF ∧
    assemble ⟨.DRW, [.reg 0, .reg 1, .num 1]⟩ = some 0xD011 ∧
    assemble ⟨.LD, [.reg 2, .K]⟩ = some 0xF20A ∧
    assemble ⟨.LD, [.reg 2, .num 0x100]⟩ = none := by decide
/-- L1.1: the fields of 0xD3A7. -/
theorem test_fields :
    fieldP 0xD3A7 = 0xD ∧ fieldX 0xD3A7 = 0x3 ∧ fieldY 0xD3A7 = 0xA ∧ fieldN 0xD3A7 = 0x7 ∧
    fieldNN 0xD3A7 = 0xA7 ∧ fieldNNN 0xD3A7 = 0x3A7 := by decide

/-! ## Register and arithmetic instructions (vectors AL) -/

/-- AL1. -/
theorem test_ldImm : see 0x6A02 base (fun t => (t.reg 0xA, t.pc)) = some (0x02, 0x202) := by
  decide +kernel
/-- AL2. -/
theorem test_addImm :
    see 0x71FF (withRegs base [(1, 1)]) (fun t => (t.reg 1, t.reg 0xF)) = some (0, 0) := by
  decide +kernel
/-- AL3. -/
theorem test_addImm_vf :
    see 0x7F01 (withRegs base [(0xF, 0xFF)]) (fun t => t.reg 0xF) = some 0 := by decide +kernel
/-- AL4. -/
theorem test_ldReg :
    see 0x8120 (withRegs base [(2, 0x33)]) (fun t => t.reg 1) = some 0x33 := by decide +kernel
/-- L1.5. -/
theorem test_or :
    see 0x8121 (withRegs base [(1, 0x0C), (2, 0x03), (0xF, 1)]) (fun t => (t.reg 1, t.reg 0xF)) =
      some (0x0F, 0) ∧
    see 0x8121 (withRegs ext [(1, 0x0C), (2, 0x03), (0xF, 1)]) (fun t => (t.reg 1, t.reg 0xF)) =
      some (0x0F, 1) := by decide +kernel
/-- AL6 and AL7. -/
theorem test_or_vf :
    see 0x8F11 (withRegs ext [(0xF, 0x0C), (1, 0x03)]) (fun t => t.reg 0xF) = some 0x0F ∧
    see 0x8F11 (withRegs base [(0xF, 0x0C), (1, 0x03)]) (fun t => t.reg 0xF) = some 0 := by
  decide +kernel
/-- From R106: 0x0C & 0x06 = 0x04; VF cleared in Baseline only. -/
theorem test_and :
    see 0x8122 (withRegs base [(1, 0x0C), (2, 0x06), (0xF, 1)]) (fun t => (t.reg 1, t.reg 0xF)) =
      some (0x04, 0) ∧
    see 0x8122 (withRegs alt [(1, 0x0C), (2, 0x06), (0xF, 1)]) (fun t => (t.reg 1, t.reg 0xF)) =
      some (0x04, 1) := by decide +kernel
/-- AL5. -/
theorem test_xor :
    see 0x8113 (withRegs base [(1, 0x5A), (0xF, 1)]) (fun t => (t.reg 1, t.reg 0xF)) =
      some (0, 0) := by decide +kernel
/-- AL8 and AL9. -/
theorem test_addReg :
    see 0x8124 (withRegs base [(1, 0xFF), (2, 0x01)]) (fun t => (t.reg 1, t.reg 0xF)) =
      some (0x00, 1) ∧
    see 0x8124 (withRegs base [(1, 0x80), (2, 0x7F)]) (fun t => (t.reg 1, t.reg 0xF)) =
      some (0xFF, 0) := by decide +kernel
/-- AL11 and AL12. -/
theorem test_addReg_vf :
    see 0x81F4 (withRegs base [(1, 0x10), (0xF, 0x01)]) (fun t => (t.reg 1, t.reg 0xF)) =
      some (0x11, 0) ∧
    see 0x8F14 (withRegs base [(1, 0xFF), (0xF, 0x00)]) (fun t => t.reg 0xF) = some 0 := by
  decide +kernel
/-- AL13 and AL14. -/
theorem test_sub :
    see 0x8125 (withRegs base [(1, 5), (2, 5)]) (fun t => (t.reg 1, t.reg 0xF)) =
      some (0x00, 1) ∧
    see 0x8125 (withRegs base [(1, 0), (2, 1)]) (fun t => (t.reg 1, t.reg 0xF)) =
      some (0xFF, 0) := by decide +kernel
/-- AL15. -/
theorem test_sub_vf :
    see 0x8F15 (withRegs base [(0xF, 5), (1, 7)]) (fun t => t.reg 0xF) = some 0 := by
  decide +kernel
/-- AL16 and AL17. -/
theorem test_subn :
    see 0x8127 (withRegs base [(1, 1), (2, 0)]) (fun t => (t.reg 1, t.reg 0xF)) =
      some (0xFF, 0) ∧
    see 0x8127 (withRegs base [(1, 5), (2, 5)]) (fun t => (t.reg 1, t.reg 0xF)) =
      some (0x00, 1) := by decide +kernel
/-- AL18. -/
theorem test_shr_baseline :
    see 0x8126 (withRegs base [(1, 0), (2, 5)]) (fun t => (t.reg 1, t.reg 2, t.reg 0xF)) =
      some (2, 5, 1) := by decide +kernel
/-- AL19 and AL20. -/
theorem test_shr_extended :
    see 0x8126 (withRegs ext [(1, 0), (2, 5)]) (fun t => (t.reg 1, t.reg 0xF)) = some (0, 0) ∧
    see 0x8126 (withRegs ext [(1, 3), (2, 5)]) (fun t => (t.reg 1, t.reg 0xF)) = some (1, 1) := by
  decide +kernel
/-- AL21 and AL22. -/
theorem test_shl :
    see 0x812E (withRegs base [(1, 0), (2, 0x80)]) (fun t => (t.reg 1, t.reg 0xF)) =
      some (0, 1) ∧
    see 0x812E (withRegs alt [(1, 0x7F), (2, 0x80)]) (fun t => (t.reg 1, t.reg 0xF)) =
      some (0xFE, 0) := by decide +kernel
/-- AL23. -/
theorem test_shl_vf :
    see 0x8F1E (withRegs base [(1, 0x81)]) (fun t => t.reg 0xF) = some 1 := by decide +kernel
/-- AL24 and AL25, with the vector's draw in the place of the free value. -/
theorem test_rnd :
    (base.randomResult 0xA7 1 0x0F).reg 1 = 0x07 ∧ (base.randomResult 0xFF 1 0x00).reg 1 = 0 := by
  decide +kernel

/-! ## Index and memory instructions (vectors ME) -/

/-- ME1. -/
theorem test_ldI : see 0xA123 base (fun t => t.i) = some 0x0123 := by decide +kernel
/-- ME2. -/
theorem test_addIVx :
    see 0xF11E (withRegs { base with i := 0xFFFF } [(1, 1), (0xF, 7)])
      (fun t => (t.i, t.reg 0xF)) = some (0, 7) := by decide +kernel
/-- ME3 and ME4. -/
theorem test_ldFVx :
    see 0xF129 (withRegs base [(1, 0x3A)]) (fun t => t.i) = some 0x0032 ∧
    see 0xF129 (withRegs base [(1, 0x0F)]) (fun t => t.i) = some 0x004B := by decide +kernel
/-- ME5, and L1.6. -/
theorem test_ldBVx :
    see 0xF133 (withRegs { base with i := 0x300 } [(1, 255)])
      (fun t => (bytesFrom t 0x300 3, t.i)) = some ([2, 5, 5], 0x300) ∧
    see 0xF133 (withRegs { base with i := 0x300 } [(1, 156)]) (fun t => bytesFrom t 0x300 3) =
      some [1, 5, 6] := by decide +kernel
/-- ME6, ME7 and ME8. -/
theorem test_ldBVx_errors :
    see 0xF133 (withRegs { base with i := 0xFFE } [(1, 7)])
      (fun t => (bytesFrom t 0xFFE 2, t.pc, errorOf t)) =
        some ([0, 0], 0x202, some (.error (.addressError 0x1000))) ∧
    see 0xF133 (withRegs { base with i := 0xFFFF } [(1, 7)]) errorOf =
      some (some (.error (.addressError 0xFFFF))) ∧
    see 0xF133 (withRegs { base with i := 0x04E } [(1, 7)])
      (fun t => (bytesFrom t 0x04E 3, errorOf t)) =
        some ([0x80, 0x80, 0], some (.error (.fontRegionWrite 0x04E))) := by decide +kernel
/-- ME9 and ME10. -/
theorem test_ldMemVx :
    see 0xF255 (withRegs { base with i := 0x300 } [(0, 1), (1, 2), (2, 3)])
      (fun t => (bytesFrom t 0x300 4, t.i)) = some ([1, 2, 3, 0], 0x303) ∧
    see 0xF255 (withRegs { ext with i := 0x300 } [(0, 1), (1, 2), (2, 3)])
      (fun t => (bytesFrom t 0x300 4, t.i)) = some ([1, 2, 3, 0], 0x300) := by decide +kernel
/-- ME12, ME13 and ME14: the three font policies. -/
theorem test_ldMemVx_font :
    see 0xF155 (withRegs { base with i := 0x04F } [(0, 9), (1, 7)])
      (fun t => (bytesFrom t 0x04F 2, t.i, errorOf t)) =
        some ([0x80, 0], 0x04F, some (.error (.fontRegionWrite 0x04F))) ∧
    see 0xF155 (withRegs { base with
        i := 0x04F, config := { Config.hardware with fontRegionWrite := .write } }
        [(0, 9), (1, 7)]) (fun t => (bytesFrom t 0x04F 2, t.i)) = some ([9, 7], 0x051) ∧
    see 0xF155 (withRegs { base with
        i := 0x04F, config := { Config.hardware with fontRegionWrite := .ignore } }
        [(0, 9), (1, 7)]) (fun t => (bytesFrom t 0x04F 2, t.i)) = some ([0x80, 7], 0x051) := by
  decide +kernel
/-- ME15. -/
theorem test_ldVxMem :
    see 0xF265 base (fun t => (t.reg 0, t.reg 1, t.reg 2, t.reg 3, t.i)) =
      some (0xF0, 0x90, 0x90, 0, 3) := by decide +kernel
/-- R52: glyph 1 of another `FONT_TABLE`, all ones, read through FX29's address; glyph 0 stays. -/
theorem test_font_parameter :
    see 0xF065 { base with
        i := 0x005, config := { Config.hardware with fontTable := Vector.replicate 75 0xFF } }
      (fun t => (t.reg 0, t.byteAt 0, t.byteAt 0x04F, t.byteAt 0x050)) =
        some (0xFF, 0xF0, 0xFF, 0x00) := by decide +kernel
/-- ME16. -/
theorem test_ldVxMem_error :
    see 0xF065 { base with i := 0xFFFF } (fun t => (t.reg 0, t.i, errorOf t)) =
      some (0, 0xFFFF, some (.error (.addressError 0xFFFF))) := by decide +kernel

/-! ## Control flow (vectors CF) -/

/-- CF1. -/
theorem test_jp : see 0x1FFE base (fun t => t.pc) = some 0x0FFE := by decide +kernel
/-- CF2. -/
theorem test_call :
    see 0x2300 { base with sp := 14 } (fun t => (t.stack[14], t.sp, t.pc)) =
      some (0x202, 15, 0x300) := by decide +kernel
/-- CF3. -/
theorem test_call_overflow :
    see 0x2300 { base with sp := 15 } (fun t => (t.sp, t.pc, errorOf t)) =
      some (15, 0x202, some (.error (.stackOverflow 0x200))) := by decide +kernel
/-- CF4. -/
theorem test_ret :
    see 0x00EE { base with sp := 1, stack := base.stack.set 0 0x246 }
      (fun t => (t.sp, t.pc, t.stack[0])) = some (0, 0x246, 0x246) := by decide +kernel
/-- CF5. -/
theorem test_ret_underflow :
    see 0x00EE base (fun t => (t.pc, errorOf t)) =
      some (0x202, some (.error (.stackUnderflow 0x200))) := by decide +kernel
/-- CF6, CF7 and, from R163, ExtendedAlt. -/
theorem test_jpV0 :
    see 0xB300 (withRegs base [(0, 0x10), (3, 0x20)]) (fun t => t.pc) = some 0x310 ∧
    see 0xB300 (withRegs ext [(0, 0x10), (3, 0x20)]) (fun t => t.pc) = some 0x320 ∧
    see 0xB300 (withRegs alt [(0, 0x10), (3, 0x20)]) (fun t => t.pc) = some 0x310 := by
  decide +kernel
/-- CF8. -/
theorem test_jpV0_high :
    see 0xBFFF (withRegs base [(0, 0xFF)]) (fun t => t.pc) = some 0x10FE := by decide +kernel
/-- CF10 and CF11. -/
theorem test_seImm :
    see 0x3105 (withRegs base [(1, 5)]) (fun t => t.pc) = some 0x204 ∧
    see 0x3105 (withRegs base [(1, 4)]) (fun t => t.pc) = some 0x202 := by decide +kernel
/-- CF12, and from R165 the other outcome. -/
theorem test_sneImm :
    see 0x4105 (withRegs base [(1, 4)]) (fun t => t.pc) = some 0x204 ∧
    see 0x4105 (withRegs base [(1, 5)]) (fun t => t.pc) = some 0x202 := by decide +kernel
/-- CF13, and from R166 the other outcome. -/
theorem test_seReg :
    see 0x5120 (withRegs base [(1, 7), (2, 7)]) (fun t => t.pc) = some 0x204 ∧
    see 0x5120 (withRegs base [(1, 7), (2, 8)]) (fun t => t.pc) = some 0x202 := by decide +kernel
/-- CF15, and from R167 the other outcome. -/
theorem test_sneReg :
    see 0x9120 (withRegs base [(1, 1), (2, 2)]) (fun t => t.pc) = some 0x204 ∧
    see 0x9120 (withRegs base [(1, 2), (2, 2)]) (fun t => t.pc) = some 0x202 := by decide +kernel
/-- CF16. -/
theorem test_skp :
    see 0xE19E (withRegs (base.writeKey 0xA true) [(1, 0x1A)]) (fun t => t.pc) = some 0x204 := by
  decide +kernel
/-- CF17. -/
theorem test_sknp :
    see 0xE1A1 (withRegs (base.writeKey 0xA true) [(1, 0x1A)]) (fun t => t.pc) = some 0x202 := by
  decide +kernel
/-- CF19. -/
theorem test_ldVxK_waits :
    see 0xF30A base (fun t => (t.pc, t.reg 3, t.batchLeft)) = some (0x200, 0, 1) := by
  decide +kernel
/-- CF20 and CF21. -/
theorem test_ldVxK :
    see 0xF30A (base.writeKey 7 true) (fun t => (t.reg 3, t.pc)) = some (7, 0x202) ∧
    see 0xF30A ((base.writeKey 9 true).writeKey 4 true) (fun t => t.reg 3) = some 4 := by
  decide +kernel
/-- CF22. -/
theorem test_exit :
    see 0x00FD base (fun t => (t.pc, t.haltedThisTick, t.batchLeft, errorOf t)) =
      some (0x202, true, 0, some .ok) := by decide +kernel
/-- CF23 and AL26: `DecodeError`. -/
theorem test_decode_error :
    see 0x0123 base (fun t => (t.pc, errorOf t)) =
      some (0x202, some (.error (.decodeError 0x0123 0x200))) ∧
    see 0x8128 base (fun t => (t.pc, errorOf t)) =
      some (0x202, some (.error (.decodeError 0x8128 0x200))) := by decide +kernel
/-- CF24 and CF25: the failing fetch. -/
theorem test_fetch_error :
    seeStep { base with pc := 0x0FFF } (fun t => (t.pc, t.batchLeft, errorOf t)) =
      some (0x0FFF, 0, some (.error (.addressError 0x1000))) ∧
    seeStep { base with pc := 0x1000 } (fun t => (t.pc, t.batchLeft, errorOf t)) =
      some (0x1000, 0, some (.error (.addressError 0x1000))) := by decide +kernel

/-! ## Timers and ticks (vectors TM) -/

/-- TM1. -/
theorem test_ldDtVx :
    see 0xF115 (withRegs base [(1, 0x3C)]) (fun t => (t.dt, t.st)) = some (0x3C, 0) := by
  decide +kernel
/-- TM2. -/
theorem test_ldStVx :
    see 0xF118 (withRegs base [(1, 0x01)]) (fun t => (t.dt, t.st)) = some (0, 0x01) := by
  decide +kernel
/-- TM3. -/
theorem test_ldVxDt :
    see 0xF207 { base with dt := 0x2A } (fun t => t.reg 2) = some 0x2A := by decide +kernel
/-- TM4 and TM5: a tick with a batch of 0. -/
theorem test_tick_empty :
    seeStep { State.construct .baseline Config.hardware with dt := 1, st := 1, ipf := 0 }
      (fun t => (t.dt, t.st, t.sound, t.pc)) =
        some (0, 0, some .play, 0x200) ∧
    seeStep { State.construct .baseline Config.hardware with ipf := 0 }
      (fun t => (t.dt, t.st, t.sound, t.pc)) =
        some (0, 0, some .pause, 0x200) := by decide +kernel
/-- TM6 and TM7: the timers count before the batch; the halt and the error end the tick. -/
theorem test_tick_start :
    see 0x00FD { State.construct .baseline Config.hardware with dt := 5 }
      (fun t => (t.dt, t.pc, t.batchLeft, errorOf t)) = some (4, 0x202, 0, some .ok) ∧
    see 0x0000 { State.construct .baseline Config.hardware with dt := 5 }
      (fun t => (t.dt, t.batchLeft, errorOf t)) =
        some (4, 0, some (.error (.decodeError 0x0000 0x200))) := by decide +kernel

/-- R294 and R250: the codes of the errors. -/
theorem test_error_codes :
    (State.reset.drive .loadFails).code = some 6 ∧
    CoreError.code (.decodeError 0 0) = 1 ∧ CoreError.code (.stackUnderflow 0) = 2 ∧
    CoreError.code (.stackOverflow 0) = 3 ∧ CoreError.code (.addressError 0) = 4 ∧
    CoreError.code (.fontRegionWrite 0) = 5 := by decide

/-! ## Raster engine (vectors RS) -/

/-- RS1. -/
theorem test_cls :
    see 0x00E0 (withPixels base [(50, 100), (0, 0)]) (fun t => (pixelsOn t, t.dirty)) =
      some ([], true) := by decide +kernel
/-- RS2: glyph 0 of the font, the start wrapped to row 1, column 6. -/
theorem test_drw_glyph :
    see 0xD015 (withRegs base [(0, 70), (1, 33)]) (fun t => (pixelsOn t, t.reg 0xF)) =
      some ([(1, 6), (1, 7), (1, 8), (1, 9), (2, 6), (2, 9), (3, 6), (3, 9), (4, 6), (4, 9),
        (5, 6), (5, 7), (5, 8), (5, 9)], 0) := by decide +kernel
/-- RS3, RS5 and RS7: collision, VF as both coordinates, and the wrap of ExtendedAlt. -/
theorem test_drw :
    see 0xD011 (withPixels (withBytes { base with i := 0x300 } 0x300 [0xC0]) [(0, 0)])
      (fun t => (pixelsOn t, t.reg 0xF)) = some ([(0, 1)], 1) ∧
    see 0xDFF1 (withRegs (withBytes { base with i := 0x300 } 0x300 [0x80]) [(0xF, 0x3F)])
      (fun t => (pixelsOn t, t.reg 0xF)) = some ([(31, 63)], 0) ∧
    see 0xD011 (withRegs (withBytes { alt with i := 0x300, mode := .high } 0x300 [0xF0])
      [(0, 126), (1, 63)]) pixelsOn = some [(63, 0), (63, 1), (63, 126), (63, 127)] := by
  decide +kernel
/-- RS20. -/
theorem test_low :
    see 0x00FE (withPixels { ext with mode := .high } [(40, 100)])
      (fun t => (t.mode, pixelsOn t, t.dirty)) = some (.low, [(40, 100)], true) := by
  decide +kernel
/-- RS11 and RS12. -/
theorem test_high :
    see 0x00FF ext (fun t => (t.mode, t.dirty)) = some (.high, true) ∧
    see 0x00FF base (fun t => (t.mode, errorOf t)) =
      some (.low, some (.error (.decodeError 0x00FF 0x200))) := by decide +kernel
/-- RS13 and RS14. -/
theorem test_scd :
    see 0x00C4 (withPixels ext [(30, 5), (10, 5)]) pixelsOn = some [(14, 5)] ∧
    see 0x00C4 (withPixels { ext with mode := .high } [(30, 5), (10, 5)]) pixelsOn =
      some [(14, 5), (34, 5)] := by decide +kernel
/-- RS19. -/
theorem test_scd_zero :
    see 0x00C0 (withPixels ext [(3, 3)]) (fun t => (pixelsOn t, t.dirty)) =
      some ([(3, 3)], true) := by decide +kernel
/-- RS15 and RS16. -/
theorem test_scr :
    see 0x00FB (withPixels ext [(0, 60), (0, 0)]) pixelsOn = some [(0, 4)] ∧
    see 0x00FB (withPixels { ext with mode := .high } [(0, 60), (0, 0)]) pixelsOn =
      some [(0, 4), (0, 64)] := by decide +kernel
/-- RS17. -/
theorem test_scr_outside :
    see 0x00FB (withPixels ext [(40, 10)]) pixelsOn = some [(40, 10)] := by decide +kernel
/-- RS18. -/
theorem test_scl :
    see 0x00FC (withPixels ext [(0, 60), (0, 2)]) pixelsOn = some [(0, 56)] := by decide +kernel

/-! ## Witnesses: for each obligation with hypotheses, data that meets them together -/

/-- The first hypothesis of the frame statements: the instruction answers a next state. -/
def answers (i : Instr) (s : State) : Prop := ∃ t : State, exec i s = .next t

/-- A state inside a tick with a word at `pc`. -/
def running (w : Nat) : State := base.withFetchWord 16 w

theorem inv_inTick (v : Variant) : (inTick v).Inv :=
  { mem_wf := rfl
    font_kept := fun _ _ _ => rfl
    baseline_low := fun _ _ => rfl
    in_tick := fun _ => ⟨rfl, rfl, by simp [inTick]⟩
    halted_ok := fun h => by cases h
    error_recorded := fun _ h => by cases h }

theorem inv_construct (v : Variant) : (State.construct v Config.hardware).Inv :=
  { mem_wf := rfl
    font_kept := fun _ _ _ => rfl
    baseline_low := fun _ _ => rfl
    in_tick := fun h => absurd rfl h
    halted_ok := fun h => by cases h
    error_recorded := fun _ h => by cases h }

/-- A word placed at 0x200 keeps the invariant. -/
theorem inv_running (w : Nat) : (running w).Inv :=
  { mem_wf := Memory.wf_write _ (by decide) (Memory.wf_write _ (by decide) rfl)
    font_kept := fun _ a ha => by
      have h : a < 80 := ha
      show Memory.read ((Memory.write [] standardGlyphs 0x200 _).write standardGlyphs 0x201 _)
        standardGlyphs a = _
      rw [Memory.read_write, if_neg (by omega), Memory.read_write, if_neg (by omega)]
      rfl
    baseline_low := fun _ _ => rfl
    in_tick := fun _ => ⟨rfl, rfl, by simp [running, State.withFetchWord, base, inTick]⟩
    halted_ok := fun h => by cases h
    error_recorded := fun _ h => by cases h }

theorem witness_DecodeOfEncodeIsTheInstruction :
    (Instr.scd 0xF).wellFormed .extended Config.hardware = true ∧
    (Instr.cls).wellFormed .baseline Config.hardware = true := by decide

theorem witness_VariantsGateOnlyTheSupersetWords :
    Config.hardware.extendedOpcodesInBaseline = false ∧
    (∃ n : Nibble, (0x00C0 : Word) = wordXYN 0x0 0x0 0xC n) ∧
    (∃ n : Nibble, (0x00CF : Word) = wordXYN 0x0 0x0 0xC n) ∧
    ¬ ((∃ n : Nibble, (0x00FD : Word) = wordXYN 0x0 0x0 0xC n) ∨
      (0x00FD : Word) = 0x00FB ∨ (0x00FD : Word) = 0x00FC ∨ (0x00FD : Word) = 0x00FE ∨
      (0x00FD : Word) = 0x00FF) := by decide +kernel

/-- Inside a tick, and between ticks; `pc` at the last address that holds a word. -/
theorem witness_StepRunsTheDecodedInstruction :
    let s : State := { base with pc := 0x0FFE }.withFetchWord 16 0x00E0
    s.pc.toNat ≤ 0x0FFE ∧
    decode s.variant s.config
      (wordOfBytes (s.byteAt s.pc.toNat) (s.byteAt (s.pc.toNat + 1))) = .ok .cls ∧
    s.batchLeft ≠ 0 ∧
    ({ s with batchLeft := 0 }).batchLeft = 0 ∧
      ({ s with batchLeft := 0 }).ipf * ({ s with batchLeft := 0 }).speed ≠ 0 := by
  decide +kernel

/-- The all-zero word is no instruction's word. -/
theorem no_instruction_is_zero (i : Instr) : encode i ≠ 0x0000 := by
  intro h
  have hp : fieldP (encode i) = 0 := by rw [h]; rfl
  have hy : fieldY (encode i) = 0 := by rw [h]; rfl
  cases i <;> simp [encode] at hp hy <;> revert hp hy <;> decide

theorem witness_DecodeErrorLeavesPcAdvanced :
    base.batchLeft ≠ 0 ∧ base.pc.toNat ≤ 0x0FFE ∧
    (0x0000 : Word) =
      wordOfBytes (base.byteAt base.pc.toNat) (base.byteAt (base.pc.toNat + 1)) ∧
    ∀ i : Instr, i.wellFormed base.variant base.config = true → encode i ≠ 0x0000 :=
  ⟨by decide, by decide, by decide +kernel, fun i _ => no_instruction_is_zero i⟩

theorem witness_AssemblyMapsEachSpellingToItsWord :
    assemble ⟨.LD, [.reg 0xA, .num 0x02]⟩ = some (encode (.ldImm 0xA 0x02)) := by decide

theorem witness_FetchErrorLeavesPcUnchanged :
    ({ base with pc := 0x0FFF }).batchLeft ≠ 0 ∧
    0x0FFE < ({ base with pc := 0x0FFF }).pc.toNat ∧
    0x0FFF < ({ base with pc := 0xFFFF }).pc.toNat := by decide

theorem witness_ErrorsArePrecise :
    base.tickResult = none ∧ exec .ret base = .next (base.raise (.stackUnderflow 0x1FE)) ∧
    (base.raise (.stackUnderflow 0x1FE)).tickResult = some (.error (.stackUnderflow 0x1FE)) :=
  ⟨rfl, rfl, rfl⟩

/-- Between ticks; with a batch, and with none. -/
theorem witness_TickStartCountsTheTimers :
    State.reset.batchLeft = 0 ∧ State.reset.ipf * State.reset.speed ≠ 0 ∧
    ({ State.reset with ipf := 0 }).batchLeft = 0 ∧
    ({ State.reset with ipf := 0 }).ipf * ({ State.reset with ipf := 0 }).speed = 0 := by decide

theorem witness_ATickIsARunOfSteps : State.reset.batchLeft = 0 := rfl

/-- A tick that returns `Ok`, and one that returns an error. -/
theorem witness_ATickAddsAtMostOneError :
    State.reset.batchLeft = 0 ∧ (∃ t : State, State.reset.tick 0 1 = .next t) ∧
    ∃ t : State, State.reset.tick 1 1 = .next t := ⟨rfl, ⟨_, rfl⟩, ⟨_, rfl⟩⟩

theorem witness_StepKeepsTheInvariant :
    base.Inv ∧ ∃ t : State, step base = .next t := ⟨inv_inTick .baseline, ⟨_, rfl⟩⟩

theorem witness_HostMovesKeepTheInvariant :
    State.reset.Inv ∧ ∃ t : State, State.reset.drive (.load [0x6A, 0x02]) = .done t :=
  ⟨inv_construct .extended, ⟨_, rfl⟩⟩

theorem witness_CanonicalMemoriesThatReadAlikeAreEqual :
    Memory.wf [(0x000, 0x01), (0xFFF, 0xFF)] standardGlyphs = true ∧
    ∀ a : Nat, Memory.read [(0x000, 0x01), (0xFFF, 0xFF)] standardGlyphs a =
      Memory.read ((Memory.write [] standardGlyphs 0xFFF 0xFF).write standardGlyphs 0x000 0x01)
        standardGlyphs a :=
  ⟨by decide, fun _ => rfl⟩

theorem witness_NoStepWritesSetup : ∃ t : State, step base = .next t := ⟨_, rfl⟩

theorem witness_OnlyCallAndReturnTouchTheStack :
    answers .cls base ∧ (∀ nnn : Addr12, Instr.cls ≠ .call nnn) ∧ Instr.cls ≠ .ret :=
  ⟨⟨_, rfl⟩, by simp, by simp⟩

theorem witness_TheFaultRecordIsSticky :
    (base.batchLeft ≠ 0 → base.tickResult = none) ∧ ∃ t : State, step base = .next t :=
  ⟨fun _ => rfl, ⟨_, rfl⟩⟩

theorem witness_OnlyRasterInstructionsMarkDirty :
    (∃ t : State, exec .cls base = .next t ∧ t.faultLog = base.faultLog) ∧
    rasterInstr .cls = true ∧ answers .exit base ∧ rasterInstr .exit = false ∧
    ({ base with dirty := true }).dirty = true :=
  ⟨⟨_, rfl, rfl⟩, rfl, ⟨_, rfl⟩, rfl, rfl⟩

theorem witness_WritersOfMemoryModeIndexAndTimers :
    answers .cls base ∧ (∀ x : Nibble, Instr.cls ≠ .ldBVx x ∧ Instr.cls ≠ .ldMemVx x) ∧
    Instr.cls ≠ .low ∧ Instr.cls ≠ .high ∧
    (∀ (x : Nibble) (nnn : Addr12), Instr.cls ≠ .ldI nnn ∧ Instr.cls ≠ .addIVx x ∧
      Instr.cls ≠ .ldFVx x ∧
      (base.variant = .baseline → Instr.cls ≠ .ldMemVx x ∧ Instr.cls ≠ .ldVxMem x)) ∧
    (∀ x : Nibble, Instr.cls ≠ .ldDtVx x) ∧ ∀ x : Nibble, Instr.cls ≠ .ldStVx x :=
  ⟨⟨_, rfl⟩, by simp, by simp, by simp, by simp, by simp, by simp⟩

/-- The policies `Fault` and `Ignore`. -/
theorem witness_NoInstructionWritesTheFont :
    base.config.fontRegionWrite ≠ .write ∧ answers (.ldBVx 1) base ∧
    ({ base with config := { Config.hardware with fontRegionWrite := .ignore } }).config.fontRegionWrite
      ≠ .write := ⟨by decide, ⟨_, rfl⟩, by decide⟩

theorem witness_LogicResults :
    ((Instr.xor 0x1 0xF = .or 0x1 0xF ∧ (0 : Byte) = base.reg 0x1 ||| base.reg 0xF) ∨
      (Instr.xor 0x1 0xF = .and 0x1 0xF ∧ (0 : Byte) = base.reg 0x1 &&& base.reg 0xF) ∨
      (Instr.xor 0x1 0xF = .xor 0x1 0xF ∧ (0 : Byte) = base.reg 0x1 ^^^ base.reg 0xF)) ∧
    base.variant = .baseline ∧ ext.variant ≠ .baseline := by decide

theorem witness_ShiftResults :
    (base.variant = .baseline → (5 : Byte) = (withRegs base [(2, 5)]).reg 2) ∧
    (base.variant ≠ .baseline → (5 : Byte) = (withRegs base [(2, 5)]).reg 1) ∧
    (ext.variant = .baseline → (3 : Byte) = (withRegs ext [(1, 3)]).reg 2) ∧
    (ext.variant ≠ .baseline → (3 : Byte) = (withRegs ext [(1, 3)]).reg 1) := by decide

/-- The state with I set, and with another policy. -/
def atIndex (w : Word) : State := { base with i := w }
def atIndexWith (w : Word) (p : FontPolicy) : State :=
  { base with i := w, config := { Config.hardware with fontRegionWrite := p } }

/-- I at the first address past the font, at the last that holds three bytes, and in the font under `Ignore`. -/
theorem witness_DecimalConversionStores :
    (∀ s ∈ [atIndex 0x050, atIndex 0xFFD, atIndexWith 0x04F .ignore, atIndexWith 0x000 .write],
      ∀ k : Nat, k < 3 → (s.i + BitVec.ofNat 16 k).toNat < 0x1000 ∧
        (s.config.fontRegionWrite = .fault → 0x04F < (s.i + BitVec.ofNat 16 k).toNat)) ∧
    ((atIndexWith 0x04F .ignore).config.fontRegionWrite = .ignore →
      0x04F < ((atIndexWith 0x04F .ignore).i + BitVec.ofNat 16 1).toNat) := by decide +kernel

theorem witness_BulkStoreStoresTheRegisters :
    ∀ s ∈ [atIndex 0x050, atIndex 0xFF0, atIndexWith 0x04F .ignore, atIndexWith 0x000 .write],
      ∀ k : Nat, k < 16 → (s.i + BitVec.ofNat 16 k).toNat < 0x1000 ∧
        (s.config.fontRegionWrite = .fault → 0x04F < (s.i + BitVec.ofNat 16 k).toNat) := by
  decide +kernel

theorem witness_BulkLoadLoadsTheRegisters :
    ∀ s ∈ [atIndex 0x000, atIndex 0xFF0], ∀ k : Nat, k < 16 →
      (s.i + BitVec.ofNat 16 k).toNat < 0x1000 := by decide +kernel

/-- The hypotheses of the address statement, for an instruction with `len` addresses from I on. -/
def leavesMemoryAt (s : State) (i : Instr) (x y n : Nibble) (len k : Nat) : Prop :=
  ((i = .ldBVx x ∧ len = 3) ∨ (i = .ldMemVx x ∧ len = x.toNat + 1) ∨
    (i = .ldVxMem x ∧ len = x.toNat + 1) ∨ (i = .drw x y n ∧ len = n.toNat)) ∧
  k < len ∧ ¬ (s.i + BitVec.ofNat 16 k).toNat < 0x1000 ∧
  ∀ j : Nat, j < k → (s.i + BitVec.ofNat 16 j).toNat < 0x1000

/-- Each of the four instructions: the last byte outside, the first byte outside, and 0xFFFF. -/
theorem witness_FirstAddressOutsideMemoryIsRaised :
    leavesMemoryAt (atIndex 0xFFE) (.ldBVx 1) 1 0 0 3 2 ∧
    leavesMemoryAt (atIndex 0x1000) (.ldMemVx 0) 0 0 0 1 0 ∧
    leavesMemoryAt (atIndex 0xFF1) (.ldVxMem 0xF) 0xF 0 0 16 15 ∧
    leavesMemoryAt (atIndex 0xFFFF) (.drw 0 1 2) 0 1 2 2 0 := by
  unfold leavesMemoryAt; decide +kernel

/-- FX33 with I at the last font address, FX55 with I at 0 (no store can reach the font from below: offset 0
is the lowest). -/
theorem witness_FirstFontAddressIsRaised :
    base.config.fontRegionWrite = .fault ∧
    ((Instr.ldBVx 1 = .ldBVx 1 ∧ 3 = 3) ∨ (Instr.ldBVx 1 = .ldMemVx 1 ∧ 3 = (1 : Nibble).toNat + 1)) ∧
    (∀ j : Nat, j < 3 → ((atIndex 0x04F).i + BitVec.ofNat 16 j).toNat < 0x1000) ∧ 0 < 3 ∧
    ((atIndex 0x04F).i + BitVec.ofNat 16 0).toNat ≤ 0x04F ∧
    ((Instr.ldMemVx 0 = .ldBVx 0 ∧ 1 = 3) ∨ (Instr.ldMemVx 0 = .ldMemVx 0 ∧ 1 = (0 : Nibble).toNat + 1)) ∧
    (∀ j : Nat, j < 1 → ((atIndex 0x000).i + BitVec.ofNat 16 j).toNat < 0x1000) ∧ 0 < 1 ∧
    ((atIndex 0x000).i + BitVec.ofNat 16 0).toNat ≤ 0x04F := by decide +kernel

theorem witness_BulkStoreThenLoadRestores :
    (∀ k : Nat, k ≤ (0xF : Nibble).toNat →
      inMemory ((atIndex 0x050).i + BitVec.ofNat 16 k) ∧
        0x04F < ((atIndex 0x050).i + BitVec.ofNat 16 k).toNat) ∧
    answers (.ldMemVx 0xF) (atIndex 0x050) := by
  refine ⟨?_, ⟨_, rfl⟩⟩
  intro k hk
  have : ∀ k : Nat, k < 16 → ((atIndex 0x050).i + BitVec.ofNat 16 k).toNat < 0x1000 ∧
      0x04F < ((atIndex 0x050).i + BitVec.ofNat 16 k).toNat := by decide +kernel
  exact this k (Nat.lt_succ_of_le hk)

/-- The word after 0xF155 is stored by it: 0x00E0. -/
theorem witness_AStoreIsSeenByTheNextFetch :
    let s : State := withRegs { running 0xF155 with i := 0x202 } [(0, 0x00), (1, 0xE0)]
    2 ≤ s.batchLeft ∧ s.pc.toNat ≤ 0x0FFC ∧ 0x04F < s.pc.toNat + 2 ∧ s.i = s.pc + 2 ∧
    wordOfBytes (s.byteAt s.pc.toNat) (s.byteAt (s.pc.toNat + 1)) = 0xF155 ∧
    decode s.variant s.config (wordOfBytes (s.reg 0) (s.reg 1)) = .ok .cls := by decide +kernel

/-- The offset jump's two clauses. -/
theorem witness_JumpTargets : ext.variant = .extended ∧ alt.variant ≠ .extended := by decide

theorem witness_CallPushesOrOverflows :
    ({ base with sp := 14 }).sp.val < 15 ∧ ({ base with sp := 15 }).sp.val = 15 := by decide

theorem witness_ReturnPopsOrUnderflows :
    (0 : Fin 16).val + 1 = ({ base with sp := 1 }).sp.val ∧
    (14 : Fin 16).val + 1 = ({ base with sp := 15 }).sp.val ∧ base.sp.val = 0 := by decide

theorem witness_ReturnUndoesCall :
    ({ base with sp := 14 }).sp.val < 15 ∧ answers (.call 0x300) { base with sp := 14 } :=
  ⟨by decide, ⟨_, rfl⟩⟩

/-- Each of the four skips, its condition holding or not. -/
theorem witness_SkipConditions :
    (∃ p : Prop, p ∧ (Instr.seImm 1 0 = .seImm 1 0 ∧ (p ↔ base.reg 1 = 0))) ∧
    (∃ p : Prop, ¬ p ∧ (Instr.sneImm 1 0 = .sneImm 1 0 ∧ (p ↔ base.reg 1 ≠ 0))) ∧
    (∃ p : Prop, p ∧ (Instr.seReg 1 2 = .seReg 1 2 ∧ (p ↔ base.reg 1 = base.reg 2))) ∧
    ∃ p : Prop, ¬ p ∧ (Instr.sneReg 1 2 = .sneReg 1 2 ∧ (p ↔ base.reg 1 ≠ base.reg 2)) :=
  ⟨⟨True, trivial, rfl, by decide⟩, ⟨False, id, rfl, by decide⟩, ⟨True, trivial, rfl, by decide⟩,
    ⟨False, id, rfl, by decide⟩⟩

/-- The key that 0xFA selects, pressed and not. -/
theorem witness_KeySkips :
    (0xA : Nibble).toNat = ((withRegs base [(1, 0xFA)]).reg 1).toNat % 16 ∧
    (base.writeKey 0xA true).key 0xA = true ∧ base.key 0xA = false := by decide

/-- The highest key alone; keys 4 and 9; none. -/
theorem witness_KeyWaitRecordsTheLowestKey :
    ((base.writeKey 0xF true).key 0xF = true ∧
      ∀ j : Nibble, j < 0xF → (base.writeKey 0xF true).key j = false) ∧
    (((base.writeKey 9 true).writeKey 4 true).key 4 = true ∧
      ∀ j : Nibble, j < 4 → ((base.writeKey 9 true).writeKey 4 true).key j = false) ∧
    ∀ k : Nibble, base.key k = false := by decide +kernel

theorem witness_KeyWaitSpins :
    (running 0xF30A).Inv ∧ (running 0xF30A).batchLeft ≠ 0 ∧
    (running 0xF30A).pc.toNat ≤ 0x0FFE ∧
    wordOfBytes ((running 0xF30A).byteAt (running 0xF30A).pc.toNat)
      ((running 0xF30A).byteAt ((running 0xF30A).pc.toNat + 1)) = wordXNN 0xF 0x3 0x0A ∧
    ∀ k : Nibble, (running 0xF30A).key k = false :=
  ⟨inv_running 0xF30A, by decide +kernel, by decide +kernel, by decide +kernel,
    by decide +kernel⟩

theorem witness_AHaltedTickReturnsOk :
    (running 0x00FD).Inv ∧ (running 0x00FD).batchLeft ≠ 0 ∧
    (running 0x00FD).pc.toNat ≤ 0x0FFE ∧
    (running 0x00FD).byteAt (running 0x00FD).pc.toNat = 0x00 ∧
    (running 0x00FD).byteAt ((running 0x00FD).pc.toNat + 1) = 0xFD :=
  ⟨inv_running 0x00FD, by decide +kernel, by decide +kernel, by decide +kernel,
    by decide +kernel⟩

/-- The scrolls' and switches' clause about Baseline. -/
theorem witness_superset_clauses : Config.hardware.extendedOpcodesInBaseline = false := rfl

/-- No bytes (n = 0, anywhere), one at the last address, fifteen. -/
theorem witness_DrawFlipsTheCoveredPixels :
    (∀ r : Nat, r < (0 : Nibble).toNat → inMemory ((atIndex 0xFFFF).i + BitVec.ofNat 16 r)) ∧
    (∀ r : Nat, r < (1 : Nibble).toNat → inMemory ((atIndex 0x0FFF).i + BitVec.ofNat 16 r)) ∧
    (∀ r : Nat, r < (15 : Nibble).toNat → inMemory ((atIndex 0x0FF1).i + BitVec.ofNat 16 r)) := by
  simp only [inMemory]; decide +kernel

theorem witness_DrawingTwiceRestoresTheBuffer :
    (0 : Nibble) ≠ 0xF ∧ (1 : Nibble) ≠ 0xF ∧
    (∀ r : Nat, r < (1 : Nibble).toNat → inMemory ((atIndex 0x0FFF).i + BitVec.ofNat 16 r)) ∧
    answers (.drw 0 1 1) (atIndex 0x0FFF) :=
  ⟨by decide, by decide, by simp only [inMemory]; decide +kernel, ⟨_, rfl⟩⟩

theorem witness_ConstructionValues :
    State.reset = State.construct .extended Config.hardware := rfl

theorem witness_LoadWritesTheProgram :
    State.reset.batchLeft = 0 ∧ 0 < [(0x00 : Byte), 0xFD].length ∧ 0 < 3584 := by decide

theorem witness_ClearProgramZeroesFromTheStart : State.reset.batchLeft = 0 := rfl

theorem witness_HostMovesBetweenTicks : base.batchLeft ≠ 0 ∧ State.reset.batchLeft = 0 := by
  decide

theorem witness_NoProgramIsADecodeError : 1 * 1 ≠ 0 := by decide

end Sys2Proof.Tests
end

section
/-! Proofs of the statements about the tick: every instruction and every cycle answers a next state, what a
cycle can do, the induction over a tick's batch, and the one sound signal (10_state.md rule R37). -/

namespace Sys2Proof.Machine

open Sys2Proof

/-! ## One instruction -/

/-- Every instruction answers a next state: an error it raises is a state too (R274). -/
theorem exists_exec_next (i : Instr) (s : State) : ∃ t : State, exec i s = .next t := by
  cases i
  case ldVxK x =>
    simp only [exec, execLdVxK]
    cases s.lowestKey with
    | some k => exact ⟨_, rfl⟩
    | none => exact ⟨_, rfl⟩
  all_goals exact ⟨_, rfl⟩

/-- No instruction writes the tick's sound signal. -/
theorem Effect.sound_eq {i : Instr} {s t : State} (h : Effect i s t) : t.sound = s.sound := by
  cases i
  case ret | call | ldBVx | ldMemVx | ldVxMem | drw =>
    obtain ⟨e, rfl⟩ | ⟨-, ht⟩ := h
    · exact s.raise_sound e
    · rw [ht]
  case ldVxK =>
    obtain ht | ht := h
    · rw [ht]
    · rw [ht]
  all_goals
    have ht : t = _ := h
    rw [ht]

/-! ## One cycle -/

/-- The end of a cycle keeps the tick's sound signal. -/
@[simp] theorem State.endTick_sound (s : State) : s.endTick.sound = s.sound := by
  rw [State.endTick_eq]

/-- What a cycle can do (R75, R78): its fetch fails, its word is no instruction, or it runs the decoded
instruction. -/
theorem State.cycle_cases (s : State) :
    (∃ e, s.fetchError = some e ∧ s.cycle = .next (s.countCycle.raise e)) ∨
    (∃ r, s.fetchError = none ∧ decode s.variant s.config s.fetchWord = .error r ∧
      s.cycle = .next (s.countCycle.advancePc.raise (.decodeError s.fetchWord s.pc)).endTick) ∨
    (∃ i t, s.fetchError = none ∧ decode s.variant s.config s.fetchWord = .ok i ∧
      exec i s.countCycle.advancePc = .next t ∧ s.cycle = .next t.endTick) := by
  cases hf : s.fetchError with
  | some e => exact .inl ⟨e, rfl, State.cycle_of_fetchError hf⟩
  | none =>
    have hpc := State.fetchError_eq_none.1 hf
    have hcycle : s.cycle = afterExecute (s.countCycle.advancePc.execute s.fetchWord) := by
      rw [State.cycle_of_fetch hpc, State.fetchWord_eq hpc]
    cases hd : decode s.variant s.config s.fetchWord with
    | error r =>
      have haddr : s.countCycle.advancePc.instrAddr = s.pc := by simp [State.instrAddr]
      refine .inr (.inl ⟨r, rfl, rfl, ?_⟩)
      rw [hcycle, State.execute_of_reject (s := s.countCycle.advancePc) hd, haddr, afterExecute_next]
    | ok i =>
      obtain ⟨t, ht⟩ := exists_exec_next i s.countCycle.advancePc
      refine .inr (.inr ⟨i, t, rfl, rfl, ht, ?_⟩)
      rw [hcycle, State.execute_of_decode (s := s.countCycle.advancePc) hd, ht, afterExecute_next]

/-- A cycle answers a next state, with the tick's sound signal as it was. -/
theorem State.cycle_keeps_sound (s : State) : ∃ t : State, s.cycle = .next t ∧ t.sound = s.sound := by
  obtain ⟨e, -, h⟩ | ⟨r, -, -, h⟩ | ⟨i, u, -, -, hu, h⟩ := s.cycle_cases
  · exact ⟨_, h, by simp⟩
  · exact ⟨_, h, by simp⟩
  · refine ⟨_, h, ?_⟩
    rw [State.endTick_sound, (exec_effect hu).sound_eq, State.advancePc_sound, State.countCycle_sound]

/-! ## A tick -/

/-- The induction over a tick's batch: where every cycle answers a next state that keeps `P`, so does the
batch. -/
theorem State.runBatch_keeps {P : State → Prop}
    (hcycle : ∀ s : State, P s → ∃ t : State, s.cycle = .next t ∧ P t) (n : Nat) {s : State} (hs : P s) :
    ∃ t : State, State.runBatch n s = .next t ∧ P t := by
  induction n generalizing s with
  | zero => exact ⟨s, rfl, hs⟩
  | succ n ih =>
    obtain ⟨u, hu, hPu⟩ := hcycle s hs
    simp only [State.runBatch, hu]
    split
    · exact ⟨u, rfl, hPu⟩
    · exact ih hPu

/-- A tick answers a next state that holds the signal given by ST at the tick's start (R37, R264). -/
theorem State.tick_sound (s : State) (ipf speed : Nat) :
    ∃ t : State, s.tick ipf speed = .next t ∧ t.sound = some (soundSignal s.st) := by
  have hcycle : ∀ u : State, u.sound = some (soundSignal s.st) →
      ∃ t : State, u.cycle = .next t ∧ t.sound = some (soundSignal s.st) := by
    intro u hu
    obtain ⟨t, ht, hsound⟩ := u.cycle_keeps_sound
    exact ⟨t, ht, hsound.trans hu⟩
  exact State.runBatch_keeps hcycle (ipf * speed) (by simp)

@[simp] theorem soundSignal_zero : soundSignal 0 = .pause := rfl

theorem soundSignal_of_ne_zero {st : Byte} (h : st ≠ 0) : soundSignal st = .play := if_neg h

/-- Settles O60: the start of the tick gives the signal by ST, and no cycle of the batch writes it. -/
theorem aTickGivesOneSoundSignal : Obligations.ATickGivesOneSoundSignal := by
  intro s ipf speed
  obtain ⟨t, ht, hsound⟩ := s.tick_sound ipf speed
  refine ⟨t, ht, fun hplay => ?_, fun hpause => ?_⟩
  · rw [hsound, soundSignal_of_ne_zero hplay]
  · rw [hsound, hpause, soundSignal_zero]

end Sys2Proof.Machine
end

section
/-! Proofs of the statements about the encoding: the fields of R71, put together again in each word format of
R73, give back the word (30_encoding.md rule R72). -/

namespace Sys2Proof

/-! ## The word formats of R73 over a word's own fields: adjacent fields join into the wider one -/

@[simp] theorem wordNNN_fields (op : Word) : wordNNN (fieldP op) (fieldNNN op) = op :=
  BitVec.extractLsb'_append_extractLsb'

@[simp] theorem wordXNN_fields (op : Word) : wordXNN (fieldP op) (fieldX op) (fieldNN op) = op := by
  have hpx : fieldP op ++ fieldX op = op.extractLsb' 8 8 :=
    BitVec.extractLsb'_append_extractLsb'_eq_extractLsb' rfl
  rw [wordXNN, hpx]
  exact BitVec.extractLsb'_append_extractLsb'

@[simp] theorem wordXYN_fields (op : Word) :
    wordXYN (fieldP op) (fieldX op) (fieldY op) (fieldN op) = op := by
  have hpx : fieldP op ++ fieldX op = op.extractLsb' 8 8 :=
    BitVec.extractLsb'_append_extractLsb'_eq_extractLsb' rfl
  have hpxy : op.extractLsb' 8 8 ++ fieldY op = op.extractLsb' 4 12 :=
    BitVec.extractLsb'_append_extractLsb'_eq_extractLsb' rfl
  rw [wordXYN, hpx, hpxy]
  exact BitVec.extractLsb'_append_extractLsb'

/-- Settles O1: in each word format, adjacent fields of the word join back into the word. -/
theorem fieldExtractionIsLossless : Obligations.FieldExtractionIsLossless :=
  fun op => ⟨wordXYN_fields op, wordNNN_fields op, wordXNN_fields op⟩

end Sys2Proof
end

section
/-! Proofs of the statements about the register and arithmetic instructions (40_alu.md): the word of an instruction
stands for it, and what a register write, a result with its flag and a logic result do to the state. -/

namespace Sys2Proof

/-- The opcode map gives the word of an instruction back to that instruction (R76): the fields of its word are the
selectors and the operands it was built from. -/
theorem decodeMap_encode (i : Instr) : decodeMap (encode i) = some i := by
  cases i
  case cls | ret | scr | scl | exit | low | high => rfl
  case scd n => revert n; decide
  all_goals simp [encode, decodeMap, decodeRegister, decodeKey, decodeMisc]

end Sys2Proof

namespace Sys2Proof.Machine

open Sys2Proof

/-- The word of an instruction stands for it in every variant that has it. -/
theorem stands_encode (i : Instr) : stands (encode i) i := by
  intro v c hwf
  simp [decode, decodeMap_encode, hwf]

section

/-! ## What a register write and a result leave as it was -/

/-- A state that differs in the registers only is as before but for them. -/
theorem onlyRegs_of_eq {s t : State} (h : t = { s with v := t.v }) : onlyRegs s t := by
  rw [h]
  exact ⟨rfl, rfl, fun _ => rfl, ⟨rfl, rfl⟩, ⟨rfl, rfl⟩, ⟨fun _ _ => rfl, rfl, rfl⟩,
    ⟨rfl, rfl, rfl, rfl, rfl⟩, ⟨rfl, rfl, rfl, rfl, rfl⟩, rfl⟩

variable (s : State) (x : Nibble) (r : Byte)

theorem State.onlyRegs_setReg : onlyRegs s (s.setReg x r) := onlyRegs_of_eq rfl

theorem State.onlyRegs_setResult (flag : Bool) : onlyRegs s (s.setResult x r flag) :=
  onlyRegs_of_eq (s.setResult_eq x r flag)

theorem State.onlyRegs_setLogic : onlyRegs s (s.setLogic x r) := onlyRegs_of_eq (s.setLogic_eq x r)

theorem State.sameRegsBut_setReg : sameRegsBut x s (s.setReg x r) :=
  fun _ hq => s.reg_setReg_of_ne r hq

theorem State.sameRegsButFlag_setResult (flag : Bool) :
    sameRegsButFlag x s (s.setResult x r flag) := by
  intro q hx (hvf : q ≠ vf)
  rw [State.reg_setResult, if_neg hvf, if_neg hx]

/-! ## The result and the flag -/

theorem State.reg_setResult_dest (flag : Bool) {x : Nibble} (hx : x ≠ vf) :
    (s.setResult x r flag).reg x = r := by
  rw [State.reg_setResult, if_neg hx, if_pos rfl]

@[simp] theorem State.reg_setResult_flag (flag : Bool) :
    (s.setResult x r flag).reg vf = flagByte flag := by
  rw [State.reg_setResult, if_pos rfl]

theorem isFlag_flagByte {b : Bool} {p : Prop} (h : b = true ↔ p) : isFlag (flagByte b) p := by
  cases b with
  | true => exact ⟨fun _ => rfl, fun hp => absurd (h.1 rfl) hp⟩
  | false => exact ⟨fun hp => absurd (h.2 hp) Bool.false_ne_true, fun _ => rfl⟩

/-- The shape R108 to R112 share: a result that `f` reads as `a`, and its flag for `p`, written last (D10). -/
theorem State.setResult_spec {α : Type} {a : α} {p : Prop} {r : Byte} {flag : Bool} (f : Byte → α)
    (hr : f r = a) (hflag : flag = true ↔ p) :
    onlyRegs s (s.setResult x r flag) ∧ sameRegsButFlag x s (s.setResult x r flag) ∧
      (x ≠ vf → f ((s.setResult x r flag).reg x) = a) ∧ isFlag ((s.setResult x r flag).reg vf) p := by
  refine ⟨s.onlyRegs_setResult x r flag, s.sameRegsButFlag_setResult x r flag, fun hx => ?_, ?_⟩
  · rwa [s.reg_setResult_dest r flag hx]
  · rw [s.reg_setResult_flag]
    exact isFlag_flagByte hflag

/-- The shape R105 to R107 share: in Baseline VF is cleared after the result is written, also when it is the
destination; in the other variants the result alone is written. -/
theorem State.setLogic_spec :
    onlyRegs s (s.setLogic x r) ∧
      (s.variant = .baseline → (x ≠ vf → (s.setLogic x r).reg x = r) ∧
        (s.setLogic x r).reg vf = 0 ∧ sameRegsButFlag x s (s.setLogic x r)) ∧
      (s.variant ≠ .baseline → (s.setLogic x r).reg x = r ∧ sameRegsBut x s (s.setLogic x r)) := by
  refine ⟨s.onlyRegs_setLogic x r, fun hv => ⟨fun hx => ?_, ?_, fun q hx hvf => ?_⟩,
    fun hv => ⟨?_, fun q hx => ?_⟩⟩
  · rw [State.reg_setLogic, if_neg fun h => hx h.1, if_pos rfl]
  · rw [State.reg_setLogic, if_pos ⟨rfl, hv⟩]
  · rw [State.reg_setLogic, if_neg fun h => hvf h.1, if_neg hx]
  · rw [State.reg_setLogic, if_neg fun h => hv h.2, if_pos rfl]
  · rw [State.reg_setLogic, if_neg fun h => hv h.2, if_neg hx]

/-! ## The arithmetic of the results and the flags -/

/-- The difference of two bytes is the mathematical one modulo 256 (R100). -/
theorem toNat_sub_eq_emod (a b : Byte) : ((a - b).toNat : Int) = (a.toNat - b.toNat : Int) % 256 := by
  rw [BitVec.toNat_sub]
  omega

theorem carryFlag_iff (a b : Byte) : carryFlag a b = true ↔ a.toNat + b.toNat > 255 := decide_eq_true_iff

theorem noBorrowFlag_iff (a b : Byte) : noBorrowFlag a b = true ↔ a.toNat ≥ b.toNat := decide_eq_true_iff

theorem shiftedOutRight_iff (b : Byte) : shiftedOutRight b = true ↔ b.toNat % 2 = 1 := by
  simp [shiftedOutRight, BitVec.getLsbD]

theorem shiftedOutLeft_iff (b : Byte) : shiftedOutLeft b = true ↔ 128 ≤ b.toNat := by
  have hmsb : shiftedOutLeft b = b.msb := rfl
  rw [hmsb, BitVec.msb_eq_decide]
  exact decide_eq_true_iff

/-- The value a shift shifts: Vy in Baseline, Vx in the other variants (R110, R112). -/
theorem State.shiftSource_eq (y : Nibble) :
    s.shiftSource x y = if s.variant = .baseline then s.reg y else s.reg x := by
  unfold State.shiftSource State.quirk
  cases s.variant <;> rfl

end

/-! ## The statements -/

/-- Settles O25: each of the three is one register write. -/
theorem loadAndImmediateAddResults : Obligations.LoadAndImmediateAddResults := by
  intro s x y nn
  refine ⟨⟨_, rfl, ?_, s.sameRegsBut_setReg x _, s.onlyRegs_setReg x _⟩,
    ⟨_, rfl, ?_, s.sameRegsBut_setReg x _, s.onlyRegs_setReg x _⟩,
    ⟨_, rfl, ?_, s.sameRegsBut_setReg x _, s.onlyRegs_setReg x _⟩,
    stands_encode (.ldImm x nn), stands_encode (.addImm x nn), stands_encode (.ldReg x y)⟩
  · exact s.reg_setReg_self x nn
  · rw [s.reg_setReg_self, BitVec.toNat_add]
  · exact s.reg_setReg_self x (s.reg y)

/-- Settles O26: each of the three writes a logic result (`State.setLogic_spec`). -/
theorem logicResults : Obligations.LogicResults := by
  intro s x y i r hi
  refine ⟨?_, stands_encode (.or x y), stands_encode (.and x y), stands_encode (.xor x y)⟩
  obtain ⟨rfl, rfl⟩ | ⟨rfl, rfl⟩ | ⟨rfl, rfl⟩ := hi
  · exact ⟨_, rfl, s.setLogic_spec x (s.reg x ||| s.reg y)⟩
  · exact ⟨_, rfl, s.setLogic_spec x (s.reg x &&& s.reg y)⟩
  · exact ⟨_, rfl, s.setLogic_spec x (s.reg x ^^^ s.reg y)⟩

/-- Settles O27: each of the three writes a result with its flag (`State.setResult_spec`). -/
theorem addAndSubtractResults : Obligations.AddAndSubtractResults := by
  intro s x y
  exact ⟨⟨_, rfl, s.setResult_spec x BitVec.toNat (BitVec.toNat_add _ _) (carryFlag_iff _ _)⟩,
    ⟨_, rfl, s.setResult_spec x (fun b => (b.toNat : Int)) (toNat_sub_eq_emod _ _) (noBorrowFlag_iff _ _)⟩,
    ⟨_, rfl, s.setResult_spec x (fun b => (b.toNat : Int)) (toNat_sub_eq_emod _ _) (noBorrowFlag_iff _ _)⟩,
    stands_encode (.addReg x y), stands_encode (.sub x y), stands_encode (.subn x y)⟩

/-- Settles O28: `src` is the value the model shifts, and each shift writes a result with its flag
(`State.setResult_spec`). -/
theorem shiftResults : Obligations.ShiftResults := by
  intro s x y src hbase hext
  have hsrc : s.shiftSource x y = src := by
    rw [s.shiftSource_eq]
    split
    · next hv => exact (hbase hv).symm
    · next hv => exact (hext hv).symm
  have hshr : (src >>> 1).toNat = src.toNat / 2 := by simp [Nat.shiftRight_one]
  have hshl : (src <<< 1).toNat = (src.toNat * 2) % 256 := by simp [Nat.shiftLeft_eq]
  subst hsrc
  exact ⟨⟨_, rfl, s.setResult_spec x BitVec.toNat hshr (shiftedOutRight_iff _)⟩,
    ⟨_, rfl, s.setResult_spec x BitVec.toNat hshl (shiftedOutLeft_iff _)⟩,
    stands_encode (.shr x y), stands_encode (.shl x y)⟩

end Sys2Proof.Machine
end

section
/-! Proofs of the statement about the index register (41_index_memory.md): what a write of I leaves as it was, and
the numbers that the operands widened to a word stand for. -/

namespace Sys2Proof.Machine

open Sys2Proof

/-- A state that differs in I only is as before but for it. -/
theorem onlyIndex_of_eq {s t : State} (h : t = { s with i := t.i }) : onlyIndex s t := by
  rw [h]
  exact ⟨fun _ => rfl, rfl, fun _ => rfl, ⟨rfl, rfl⟩, ⟨rfl, rfl⟩, ⟨fun _ _ => rfl, rfl, rfl⟩,
    ⟨rfl, rfl, rfl, rfl, rfl⟩, ⟨rfl, rfl, rfl, rfl, rfl⟩, rfl⟩

theorem State.onlyIndex_setIndex (s : State) (w : Word) : onlyIndex s (s.setIndex w) :=
  onlyIndex_of_eq rfl

/-! ## The numbers of the widened operands (R74) -/

@[simp] theorem toNat_zextAddr (nnn : Addr12) : (zextAddr nnn).toNat = nnn.toNat :=
  BitVec.toNat_setWidth_of_le (by decide)

@[simp] theorem toNat_zextByte (b : Byte) : (zextByte b).toNat = b.toNat :=
  BitVec.toNat_setWidth_of_le (by decide)

@[simp] theorem State.toNat_regLow (s : State) (x : Nibble) :
    (s.regLow x).toNat = (s.reg x).toNat % 16 :=
  BitVec.extractLsb'_toNat 0 4 (s.reg x)

/-- Every glyph's address fits a word: the product does not wrap (R52). -/
@[simp] theorem toNat_glyphAddr (d : Nibble) : (glyphAddr d).toNat = 5 * d.toNat := by
  have hwide : (d.zeroExtend 16).toNat = d.toNat := BitVec.toNat_setWidth_of_le (by decide)
  have hd : d.toNat < 16 := d.isLt
  have hmul : (glyphAddr d).toNat = 5 * (d.zeroExtend 16).toNat % 65536 := BitVec.toNat_mul _ _
  omega

/-- Settles O30: each of the three is one write of I, whose value is read as a number. -/
theorem indexRegisterResults : Obligations.IndexRegisterResults := by
  intro s x nnn
  refine ⟨⟨_, rfl, ?_, s.onlyIndex_setIndex _⟩, ⟨_, rfl, ?_, s.onlyIndex_setIndex _⟩,
    ⟨_, rfl, ?_, s.onlyIndex_setIndex _⟩,
    stands_encode (.ldI nnn), stands_encode (.addIVx x), stands_encode (.ldFVx x)⟩
  · rw [State.setIndex_i, toNat_zextAddr]
  · rw [State.setIndex_i, BitVec.toNat_add, toNat_zextByte]
  · rw [State.setIndex_i, toNat_glyphAddr, State.toNat_regLow]

end Sys2Proof.Machine
end

section
/-! Proofs of the statements about the control flow instructions (42_control_flow.md): what a jump, a skip, a push,
a pop and a raised error leave as it was, then the conditions and targets of the instructions. -/

namespace Sys2Proof.Machine

open Sys2Proof

section

/-! ## What the control flow operations leave as it was -/

/-- A state that differs in `pc` and the return stack only is as before but for them. -/
theorem frame_of_eq_but_pc_stack {s t : State}
    (h : t = { s with pc := t.pc, stack := t.stack, sp := t.sp }) :
    sameRegs s t ∧ t.i = s.i ∧ sameMemory s t ∧ sameTimers s t ∧ sameScreen s t ∧ sameRest s t := by
  rw [h]
  exact ⟨fun _ => rfl, rfl, fun _ => rfl, ⟨rfl, rfl⟩, ⟨fun _ _ => rfl, rfl, rfl⟩,
    ⟨rfl, rfl, rfl, rfl, rfl⟩, ⟨rfl, rfl, rfl, rfl, rfl⟩, rfl⟩

variable (s : State)

theorem State.onlyPc_jump (target : Word) : onlyPc s (s.jump target) := by
  obtain ⟨hregs, hi, hmem, hframe⟩ := frame_of_eq_but_pc_stack (s := s) (t := s.jump target) rfl
  exact ⟨hregs, hi, hmem, ⟨rfl, rfl⟩, hframe⟩

/-- An error taken is all that `raise` does (R256, R258). -/
theorem State.tookError_raise (e : CoreError) : tookError s (s.raise e) e :=
  ⟨rfl, rfl, rfl, fun _ => rfl, rfl, rfl, fun _ => rfl, ⟨rfl, rfl⟩, ⟨rfl, rfl⟩,
    ⟨fun _ _ => rfl, rfl, rfl⟩, ⟨rfl, rfl, rfl, rfl, rfl⟩, rfl, rfl, rfl⟩

/-! ## Skips -/

/-- A skip is a jump: to the word after the next one if the condition holds, else to where `pc` stands. -/
theorem State.skipIf_eq_jump (cond : Bool) :
    s.skipIf cond = s.jump (if cond then s.pc + 2 else s.pc) := s.skipIf_eq cond

/-- The shape R164 to R169 share: `pc` moves by 2 modulo 65536 exactly when `p` holds, and nothing else moves. -/
theorem State.skipIf_spec {cond : Bool} {p : Prop} (h : cond = true ↔ p) :
    onlyPc s (s.skipIf cond) ∧ (p → (s.skipIf cond).pc.toNat = (s.pc.toNat + 2) % 65536) ∧
      (¬ p → (s.skipIf cond).pc = s.pc) := by
  rw [State.skipIf_eq_jump]
  refine ⟨s.onlyPc_jump _, fun hp => ?_, fun hp => ?_⟩
  · rw [State.jump_pc, if_pos (h.2 hp)]
    exact BitVec.toNat_add s.pc 2
  · rw [State.jump_pc, if_neg fun hc => hp (h.1 hc)]

/-! ## The offset jump -/

/-- The offset register: the one of the high nibble of `nnn` in Extended, V0 in the other variants (R163). -/
theorem State.offsetReg_eq (nnn : Addr12) :
    s.offsetReg nnn = if s.variant = .extended then BitVec.ofNat 4 (nnn.toNat / 256) else 0 := by
  have hhigh : nnn.extractLsb' 8 4 = BitVec.ofNat 4 (nnn.toNat / 256) := by
    rw [BitVec.extractLsb', Nat.shiftRight_eq_div_pow]
  unfold State.offsetReg State.quirk
  rw [hhigh]
  cases s.variant <;> rfl

/-- The sum of a 12-bit address and a byte fits a word: the offset jump's target does not wrap. -/
theorem State.toNat_offsetTarget (nnn : Addr12) :
    (s.offsetTarget nnn).toNat = nnn.toNat + (s.reg (s.offsetReg nnn)).toNat := by
  rw [State.offsetTarget, BitVec.toNat_add, toNat_zextAddr, toNat_zextByte]
  have hnnn := nnn.isLt
  have hreg := (s.reg (s.offsetReg nnn)).isLt
  omega

end

/-! ## Call and return -/

theorem exec_call_of_lt (nnn : Addr12) {s : State} (h : s.sp.val < 15) :
    exec (.call nnn) s = .next ((s.push s.pc).jump (zextAddr nnn)) := by
  have hsp : s.sp ≠ 15 := fun hsp => by simp [hsp] at h
  have hcheck : s.callError = none := if_neg hsp
  rw [exec, execCall, hcheck, State.guarded_none]

theorem exec_call_of_eq (nnn : Addr12) {s : State} (h : s.sp.val = 15) :
    exec (.call nnn) s = .next (s.raise (.stackOverflow (s.pc - 2))) := by
  have hcheck : s.callError = some (.stackOverflow s.instrAddr) := if_pos (Fin.ext h)
  rw [exec, execCall, hcheck, State.guarded_some, State.instrAddr]

theorem exec_ret_of_pos {s : State} {k : Fin 16} (h : k.val + 1 = s.sp.val) :
    exec .ret s = .next ({ s with sp := k }.jump s.stack[k.val]) := by
  have hsp : s.sp ≠ 0 := fun hsp => by simp [hsp] at h
  have hcheck : s.retError = none := if_neg hsp
  have hk : s.sp - 1 = k := by omega
  rw [exec, execRet, hcheck, State.guarded_none, State.pop, State.top]
  simp only [hk]

theorem exec_ret_of_zero {s : State} (h : s.sp.val = 0) :
    exec .ret s = .next (s.raise (.stackUnderflow (s.pc - 2))) := by
  have hcheck : s.retError = some (.stackUnderflow s.instrAddr) := if_pos (Fin.ext h)
  rw [exec, execRet, hcheck, State.guarded_some, State.instrAddr]

/-! ## The statements -/

/-- Settles O38: both are jumps, the target of the second given by its offset register (`State.offsetReg_eq`). -/
theorem jumpTargets : Obligations.JumpTargets := by
  intro s nnn
  refine ⟨⟨_, rfl, toNat_zextAddr nnn, s.onlyPc_jump _⟩,
    ⟨_, rfl, fun hext => ?_, fun hother => ?_, s.onlyPc_jump _⟩,
    stands_encode (.jp nnn), stands_encode (.jpV0 nnn)⟩
  · rw [State.jump_pc, s.toNat_offsetTarget, s.offsetReg_eq, if_pos hext]
  · rw [State.jump_pc, s.toNat_offsetTarget, s.offsetReg_eq, if_neg hother]

/-- Settles O39: below 15 the call pushes and jumps, at 15 it raises and does nothing else. -/
theorem callPushesOrOverflows : Obligations.CallPushesOrOverflows := by
  intro s nnn
  refine ⟨fun hsp => ⟨_, exec_call_of_lt nnn hsp, ?_, ?_, toNat_zextAddr nnn, fun k hk => ?_,
      frame_of_eq_but_pc_stack rfl⟩,
    fun hsp => ⟨_, exec_call_of_eq nnn hsp, s.tookError_raise _⟩, stands_encode (.call nnn)⟩
  · exact Vector.getElem_set_self _
  · exact Fin.val_add_one_of_lt' (by omega)
  · exact Vector.getElem_set_ne s.sp.isLt k.isLt fun heq => hk (Fin.ext heq.symm)

/-- Settles O40: with an address held the return takes the top one, with none it raises and does nothing else. -/
theorem returnPopsOrUnderflows : Obligations.ReturnPopsOrUnderflows := by
  intro s
  exact ⟨fun k hk => ⟨_, exec_ret_of_pos hk, rfl, rfl, rfl, frame_of_eq_but_pc_stack rfl⟩,
    fun hsp => ⟨_, exec_ret_of_zero hsp, s.tookError_raise _⟩, stands_encode .ret⟩

/-- Settles O42: each of the four is a skip on its condition (`State.skipIf_spec`). -/
theorem skipConditions : Obligations.SkipConditions := by
  intro s x y nn i p hi
  refine ⟨?_, stands_encode (.seImm x nn), stands_encode (.sneImm x nn),
    stands_encode (.seReg x y), stands_encode (.sneReg x y)⟩
  obtain ⟨rfl, hp⟩ | ⟨rfl, hp⟩ | ⟨rfl, hp⟩ | ⟨rfl, hp⟩ := hi
  · exact ⟨_, rfl, s.skipIf_spec (decide_eq_true_iff.trans hp.symm)⟩
  · exact ⟨_, rfl, s.skipIf_spec (decide_eq_true_iff.trans hp.symm)⟩
  · exact ⟨_, rfl, s.skipIf_spec (decide_eq_true_iff.trans hp.symm)⟩
  · exact ⟨_, rfl, s.skipIf_spec (decide_eq_true_iff.trans hp.symm)⟩

/-- Settles O43: `k` is the key the register's low 4 bits select, and each of the two is a skip on its state. -/
theorem keySkips : Obligations.KeySkips := by
  intro s x k hk
  have hlow : s.regLow x = k := BitVec.eq_of_toNat_eq ((s.toNat_regLow x).trans hk.symm)
  subst hlow
  obtain ⟨honly, hskip, hstay⟩ := s.skipIf_spec (cond := s.key (s.regLow x)) Iff.rfl
  obtain ⟨honly', hskip', hstay'⟩ := s.skipIf_spec (cond := !s.key (s.regLow x)) (iff_of_eq (Bool.not_eq_true' _))
  exact ⟨⟨_, rfl, honly, hskip, fun hup => hstay (Bool.eq_false_iff.1 hup)⟩,
    ⟨_, rfl, honly', hskip', fun hdown => hstay' (Bool.ne_false_iff.2 hdown)⟩,
    stands_encode (.skp x), stands_encode (.sknp x)⟩

/-- Settles O46: the halt writes the flag and the batch alone. -/
theorem haltSentinelEndsTheBatch : Obligations.HaltSentinelEndsTheBatch := by
  refine ⟨fun s => ⟨s.haltBatch, rfl, rfl, rfl, ?_⟩, stands_encode .exit⟩
  exact ⟨rfl, rfl, rfl, s.reg_haltBatch, rfl, rfl, s.byteAt_haltBatch, ⟨rfl, rfl⟩, ⟨rfl, rfl⟩,
    ⟨s.pixel_haltBatch, rfl, rfl⟩, ⟨rfl, rfl, rfl, rfl, rfl⟩, rfl⟩

end Sys2Proof.Machine
end

section
/-! Proof of the statement about the timer instructions (43_timers.md): what a write of DT or ST leaves as it was. -/

namespace Sys2Proof.Machine

open Sys2Proof

/-- A state that differs in DT and ST only is as before but for them. -/
theorem frame_of_eq_but_timers {s t : State} (h : t = { s with dt := t.dt, st := t.st }) :
    sameRegs s t ∧ t.pc = s.pc ∧ t.i = s.i ∧ sameMemory s t ∧ sameStack s t ∧ sameScreen s t ∧
      sameRest s t := by
  rw [h]
  exact ⟨fun _ => rfl, rfl, rfl, fun _ => rfl, ⟨rfl, rfl⟩, ⟨fun _ _ => rfl, rfl, rfl⟩,
    ⟨rfl, rfl, rfl, rfl, rfl⟩, ⟨rfl, rfl, rfl, rfl, rfl⟩, rfl⟩

/-- Settles O48: the read of DT is one register write, and each of the other two writes one timer. -/
theorem timerInstructionResults : Obligations.TimerInstructionResults := by
  intro s x
  exact ⟨⟨_, rfl, s.reg_setReg_self x s.dt, s.sameRegsBut_setReg x s.dt, s.onlyRegs_setReg x s.dt⟩,
    ⟨_, rfl, s.setDt_dt (s.reg x), s.setDt_st (s.reg x), frame_of_eq_but_timers rfl⟩,
    ⟨_, rfl, s.setSt_st (s.reg x), s.setSt_dt (s.reg x), frame_of_eq_but_timers rfl⟩,
    stands_encode (.ldVxDt x), stands_encode (.ldDtVx x), stands_encode (.ldStVx x)⟩

end Sys2Proof.Machine
end

section
/-! Proofs of the statements about clearing the buffer and switching the mode (44_raster.md): what a write of the
buffer and a write of the mode leave as it was, and the superset words in Baseline. -/

namespace Sys2Proof.Machine

open Sys2Proof

/-- In Baseline without the superset words, the word of a superset instruction is rejected by name (R77). -/
theorem decode_baseline_encode {i : Instr} (hi : i.extendedOnly = true) {c : Config}
    (hc : c.extendedOpcodesInBaseline = false) :
    decode .baseline c (encode i) = .error (.notInVariant (encode i)) := by
  have hwf : i.wellFormed .baseline c = false := by simp [Instr.wellFormed, hi, hc]
  simp [decode, decodeMap_encode, hwf]

/-- A state that differs in the registers, the display buffer, the mode and the dirty flag only is as before but
for them. -/
theorem onlyScreenAndRegs_of_eq {s t : State}
    (h : t = { s with v := t.v, disp := t.disp, mode := t.mode, dirty := t.dirty }) :
    onlyScreenAndRegs s t := by
  rw [h]
  exact ⟨rfl, rfl, fun _ => rfl, ⟨rfl, rfl⟩, ⟨rfl, rfl⟩,
    ⟨rfl, rfl, rfl, rfl, rfl⟩, ⟨rfl, rfl, rfl, rfl, rfl⟩, rfl⟩

section

variable (s : State)

/-- A write of the buffer is what the pixels read afterwards. -/
@[simp] theorem State.pixel_setDisp (d : Display) (row col : Nat) :
    (s.setDisp d).pixel row col = d.pixel row col := rfl

/-- A write of the buffer sets dirty (R217) and keeps the mode, the registers and all that is not the screen's. -/
theorem State.setDisp_frame (d : Display) :
    (s.setDisp d).dirty = true ∧ (s.setDisp d).mode = s.mode ∧ sameRegs s (s.setDisp d) ∧
      onlyScreenAndRegs s (s.setDisp d) :=
  ⟨s.setDisp_dirty d, s.setDisp_mode d, s.reg_setDisp d, onlyScreenAndRegs_of_eq rfl⟩

/-- The shape R212 and R213 share: the mode is written and dirty set, the buffer and all else kept. -/
theorem State.setMode_spec (m : Mode) :
    (s.setMode m).mode = m ∧ (s.setMode m).dirty = true ∧ samePixels s (s.setMode m) ∧
      sameRegs s (s.setMode m) ∧ onlyScreenAndRegs s (s.setMode m) :=
  ⟨s.setMode_mode m, s.setMode_dirty m, s.pixel_setMode m, s.reg_setMode m, onlyScreenAndRegs_of_eq rfl⟩

end

/-- Settles O49: the clear writes the blank buffer, whose every pixel is off (`Display.pixel_blank`). -/
theorem clearTurnsEveryPixelOff : Obligations.ClearTurnsEveryPixelOff := by
  refine ⟨fun s => ⟨_, rfl, fun row col => ?_, s.setDisp_frame _⟩, stands_encode .cls⟩
  rw [State.pixel_setDisp, Display.pixel_blank]

/-- Settles O50: each of the two is one write of the mode (`State.setMode_spec`). -/
theorem modeSwitchKeepsTheBuffer : Obligations.ModeSwitchKeepsTheBuffer :=
  ⟨fun s => ⟨⟨_, rfl, s.setMode_spec .low⟩, ⟨_, rfl, s.setMode_spec .high⟩⟩,
    stands_encode .low, stands_encode .high,
    fun _ hc => ⟨decode_baseline_encode (i := .low) rfl hc, decode_baseline_encode (i := .high) rfl hc⟩⟩

end Sys2Proof.Machine
end

section
/-! Proof of the statement about clearing the program (70_reset_and_hazards.md): the host's move between ticks, the
bytes of the cleared memory, and what a change of memory leaves as it was. -/

namespace Sys2Proof.Machine

open Sys2Proof

/-- Between ticks the host's move is its operation on the state (R273). -/
theorem State.drive_of_betweenTicks {s : State} (h : s.batchLeft = 0) (a : DriverAction) :
    s.drive a = s.apply a :=
  if_pos (beq_iff_eq.mpr h)

/-- A state that differs in memory only is as before but for it. -/
theorem frame_of_eq_but_mem {s t : State} (h : t = { s with mem := t.mem }) :
    sameRegs s t ∧ t.pc = s.pc ∧ t.i = s.i ∧ sameStack s t ∧ sameTimers s t ∧ sameScreen s t ∧ sameRest s t := by
  rw [h]
  exact ⟨fun _ => rfl, rfl, rfl, ⟨rfl, rfl⟩, ⟨rfl, rfl⟩, ⟨fun _ _ => rfl, rfl, rfl⟩,
    ⟨rfl, rfl, rfl, rfl, rfl⟩, ⟨rfl, rfl, rfl, rfl, rfl⟩, rfl⟩

/-- The cleared memory (R295): an address from 0x200 on has no entry, and lies above the font. -/
theorem State.byteAt_clearProgram (s : State) (a : Nat) :
    s.clearProgram.byteAt a = if a < programStart then s.byteAt a else 0 := by
  have hread : s.clearProgram.byteAt a =
      if a < programStart then s.byteAt a else Memory.background s.config.fontTable a :=
    Memory.read_filter_lt s.mem programStart a
  rw [hread]
  split
  · rfl
  · next ha => exact Memory.background_above_font (Nat.le_trans (by decide) (Nat.not_lt.mp ha))

/-- Settles O57: the bytes are those of `State.byteAt_clearProgram`, and the move writes memory only. -/
theorem clearProgramZeroesFromTheStart : Obligations.ClearProgramZeroesFromTheStart := by
  intro s hs
  refine ⟨s.clearProgram, State.drive_of_betweenTicks hs _, fun a ha _ => ?_, fun a ha => ?_,
    frame_of_eq_but_mem rfl⟩
  · exact (s.byteAt_clearProgram a).trans (if_neg (Nat.not_lt.mpr ha))
  · exact (s.byteAt_clearProgram a).trans (if_pos ha)

end Sys2Proof.Machine
end

section
/-! Proofs of the statements about the decoder, the encoder and the assembler (30_encoding.md): the decoder's map and
the encoder are inverse to each other, and so are the assembler's parser and the spelling. -/

namespace Sys2Proof

/-! ## The opcode map and the encoder are inverse to each other (R76) -/

section

variable {op : Word} {p x y n : Nibble} {nn : Byte}

theorem wordNNN_of_fields (hp : fieldP op = p) : wordNNN p (fieldNNN op) = op :=
  hp ▸ wordNNN_fields op

theorem wordXNN_of_fields (hp : fieldP op = p) (hx : fieldX op = x) (hnn : fieldNN op = nn) :
    wordXNN p x nn = op :=
  hp ▸ hx ▸ hnn ▸ wordXNN_fields op

theorem wordXYN_of_fields (hp : fieldP op = p) (hx : fieldX op = x) (hy : fieldY op = y) (hn : fieldN op = n) :
    wordXYN p x y n = op :=
  hp ▸ hx ▸ hy ▸ hn ▸ wordXYN_fields op

variable {i : Instr}

theorem encode_of_decodeSystem (hp : fieldP op = 0x0) (h : decodeSystem op = some i) : encode i = op := by
  unfold decodeSystem at h
  split at h
  -- 00CN, which the function nibble selects
  case h_8 hx _ _ _ _ _ _ _ =>
    split at h
    · next hy => cases h; exact wordXYN_of_fields hp hx hy rfl
    · cases h
  case h_9 => cases h
  all_goals
    next hx hnn => cases h; exact wordXNN_of_fields hp hx hnn

theorem encode_of_decodeRegister (hp : fieldP op = 0x8) (h : decodeRegister op = some i) : encode i = op := by
  unfold decodeRegister at h
  simp only at h
  split at h
  case h_10 => cases h
  all_goals
    next hn => cases h; exact wordXYN_of_fields hp rfl rfl hn

theorem encode_of_decodeKey (hp : fieldP op = 0xE) (h : decodeKey op = some i) : encode i = op := by
  unfold decodeKey at h
  split at h
  case h_3 => cases h
  all_goals
    next hnn => cases h; exact wordXNN_of_fields hp rfl hnn

theorem encode_of_decodeMisc (hp : fieldP op = 0xF) (h : decodeMisc op = some i) : encode i = op := by
  unfold decodeMisc at h
  simp only at h
  split at h
  case h_10 => cases h
  all_goals
    next hnn => cases h; exact wordXNN_of_fields hp rfl hnn

/-- A word that the opcode map gives to an instruction is the word of that instruction: its fields are the
instruction's selectors and operands. -/
theorem encode_of_decodeMap (h : decodeMap op = some i) : encode i = op := by
  unfold decodeMap at h
  split at h
  -- the primary nibbles with a map of their own
  case h_1 hp => exact encode_of_decodeSystem hp h
  case h_9 hp => exact encode_of_decodeRegister hp h
  case h_15 hp => exact encode_of_decodeKey hp h
  case h_16 =>
    refine encode_of_decodeMisc ?_ h
    generalize fieldP op = p at *
    revert p
    decide
  -- 5XY0 and 9XY0, whose lowest nibble is fixed
  case h_6 hp | h_10 hp =>
    split at h
    · next hn => cases h; exact wordXYN_of_fields hp rfl rfl hn
    · cases h
  -- one instruction for the nibble: formats NNN, XYN and XNN
  case h_2 hp | h_3 hp | h_11 hp | h_12 hp => cases h; exact wordNNN_of_fields hp
  case h_14 hp => cases h; exact wordXYN_of_fields hp rfl rfl rfl
  all_goals
    next hp => cases h; exact wordXNN_of_fields hp rfl rfl

end

/-- The opcode map gives a word to an instruction exactly when it is that instruction's word. -/
theorem decodeMap_eq_some_iff {op : Word} {i : Instr} : decodeMap op = some i ↔ encode i = op :=
  ⟨encode_of_decodeMap, fun h => h ▸ decodeMap_encode i⟩

theorem encode_injective {i j : Instr} (h : encode i = encode j) : i = j :=
  Option.some.inj ((decodeMap_encode i).symm.trans (h ▸ decodeMap_encode j))

/-! ## The decoder: the opcode map under the gating of R77 -/

theorem decode_eq_ok_iff {v : Variant} {c : Config} {op : Word} {i : Instr} :
    decode v c op = .ok i ↔ i.wellFormed v c = true ∧ encode i = op := by
  rw [← decodeMap_eq_some_iff]
  unfold decode
  cases decodeMap op with
  | none => simp
  | some j =>
    by_cases hwf : j.wellFormed v c = true
    · simp only [hwf, if_true, Except.ok.injEq, Option.some.injEq]
      exact ⟨fun h => ⟨h ▸ hwf, h⟩, And.right⟩
    · simp only [hwf, Option.some.injEq]
      exact ⟨fun h => (by cases h), fun ⟨hi, h⟩ => absurd (h ▸ hi) hwf⟩

/-- A word that no superset instruction has decodes the same way in every variant. -/
theorem decode_eq_of_not_extendedOnly {op : Word} (h : ∀ i : Instr, encode i = op → i.extendedOnly = false)
    (v v' : Variant) (c : Config) : decode v c op = decode v' c op := by
  unfold decode
  cases hmap : decodeMap op with
  | none => rfl
  | some i =>
    have hi := h i (decodeMap_eq_some_iff.1 hmap)
    simp [Instr.wellFormed, hi]

/-- The superset words of R77 are the words of the five superset instructions. -/
theorem supersetWord_iff {op : Word} :
    ((∃ n : Nibble, op = wordXYN 0x0 0x0 0xC n) ∨ op = 0x00FB ∨ op = 0x00FC ∨ op = 0x00FE ∨ op = 0x00FF) ↔
      ∃ i : Instr, i.extendedOnly = true ∧ encode i = op := by
  constructor
  · rintro (⟨n, rfl⟩ | rfl | rfl | rfl | rfl)
    · exact ⟨.scd n, rfl, rfl⟩
    · exact ⟨.scr, rfl, rfl⟩
    · exact ⟨.scl, rfl, rfl⟩
    · exact ⟨.low, rfl, rfl⟩
    · exact ⟨.high, rfl, rfl⟩
  · rintro ⟨i, hi, rfl⟩
    cases i
    case scd n => exact .inl ⟨n, rfl⟩
    case scr | scl | low | high => simp [encode]
    all_goals cases hi

theorem wellFormed_of_ne_baseline (i : Instr) {v : Variant} (c : Config) (h : v ≠ .baseline) :
    i.wellFormed v c = true := by
  simp [Instr.wellFormed, h]

/-- A word's two bytes, in the order memory holds them, are the word (R56). -/
@[simp] theorem wordOfBytes_highByte_lowByte (op : Word) : wordOfBytes (highByte op) (lowByte op) = op :=
  BitVec.extractLsb'_append_extractLsb'

/-! ## The assembler (R81) -/

namespace Machine

theorem field_eq_some_iff {w n : Nat} {b : BitVec w} : field w n = some b ↔ n = b.toNat := by
  unfold field
  split
  · next hn =>
    rw [Option.some.injEq]
    exact ⟨fun h => by rw [← h, BitVec.toNat_ofNat, Nat.mod_eq_of_lt hn], fun h => by simp [h]⟩
  · next hn => exact ⟨fun h => (by cases h), fun h => absurd (h ▸ b.isLt) hn⟩

/-- A field's own number is read back as the field. -/
@[simp] theorem field_toNat {w : Nat} (b : BitVec w) : field w b.toNat = some b := field_eq_some_iff.2 rfl

/-- A number read as an instruction's field is that field's own number. -/
theorem eq_toNat_of_map_field {w n : Nat} {f : BitVec w → Instr} {i : Instr} (h : (field w n).map f = some i) :
    ∃ b : BitVec w, n = b.toNat ∧ f b = i := by
  obtain ⟨b, hb, hi⟩ := Option.map_eq_some_iff.1 h
  exact ⟨b, field_eq_some_iff.1 hb, hi⟩

theorem parse_spell (i : Instr) : parse (spell i) = some i := by
  cases i <;> simp [parse, spell, parseLd, parsePlain]

theorem spell_of_parsePlain {m : Mnemonic} {i : Instr} (h : parsePlain m = some i) : spell i = ⟨m, []⟩ := by
  cases m <;> cases h <;> rfl

theorem spell_of_parseLd {os : List AsmOperand} {i : Instr} (h : parseLd os = some i) : spell i = ⟨.LD, os⟩ := by
  unfold parseLd at h
  split at h
  -- `LD Vx, nn` and `LD I, nnn`
  case h_1 | h_3 =>
    obtain ⟨b, rfl, rfl⟩ := eq_toNat_of_map_field h
    rfl
  all_goals cases h
  all_goals rfl

/-- What the assembler reads as an instruction is the spelling of that instruction: every case of the parser places
its operands where the spelling has them. -/
theorem spell_of_parse {l : AsmLine} {i : Instr} (h : parse l = some i) : spell i = l := by
  obtain ⟨m, os⟩ := l
  simp only [parse] at h
  split at h
  case h_1 => exact spell_of_parsePlain h
  case h_2 => exact spell_of_parseLd h
  -- `JP V0, nnn`, where the register must be V0
  case h_5 =>
    split at h
    · next hx =>
      obtain ⟨b, rfl, rfl⟩ := eq_toNat_of_map_field h
      rw [hx]
      rfl
    · cases h
  -- the other spellings with a number, then those with registers and keywords alone
  case h_3 | h_4 | h_6 | h_7 | h_9 | h_11 | h_21 | h_22 =>
    obtain ⟨b, rfl, rfl⟩ := eq_toNat_of_map_field h
    rfl
  all_goals cases h
  all_goals rfl

/-! ## The statements -/

/-- Settles O2: the opcode map gives the instruction back (`stands_encode`), and the bytes join into its word. -/
theorem decodeOfEncodeIsTheInstruction : Obligations.DecodeOfEncodeIsTheInstruction := by
  intro v c i rest hwf
  have hdecode := stands_encode i v c hwf
  refine ⟨hdecode, ?_⟩
  simp [encodeBytes, decodeBytes, hdecode]

/-- Settles O3: the decoder is the inverse of the encoder on the well-formed instructions (`decode_eq_ok_iff`). -/
theorem aWordHasAtMostOneInstruction : Obligations.AWordHasAtMostOneInstruction := by
  intro v c op
  refine ⟨fun i => decode_eq_ok_iff, forall_congr' fun i => ?_⟩
  rw [Ne, decode_eq_ok_iff, not_and]

/-- Settles O4: the superset words are those of the superset instructions (`supersetWord_iff`), which the gating
turns away in Baseline alone; on every other word it does nothing. -/
theorem variantsGateOnlyTheSupersetWords : Obligations.VariantsGateOnlyTheSupersetWords := by
  intro c op
  rw [supersetWord_iff]
  refine ⟨?_, fun hnone => ?_⟩
  · rintro hc ⟨i, hi, rfl⟩
    exact ⟨decode_baseline_encode hi hc, i,
      stands_encode i _ c (wellFormed_of_ne_baseline i c (by decide)),
      stands_encode i _ c (wellFormed_of_ne_baseline i c (by decide))⟩
  · have hplain : ∀ i : Instr, encode i = op → i.extendedOnly = false :=
      fun i hi => Bool.eq_false_iff.2 fun hext => hnone ⟨i, hext, hi⟩
    exact ⟨decode_eq_of_not_extendedOnly hplain _ _ c, decode_eq_of_not_extendedOnly hplain _ _ c⟩

/-- Settles O5: each of the words is the word of its instruction. -/
theorem listedWordsDecode : Obligations.ListedWordsDecode :=
  ⟨stands_encode (.ldImm 0xA 0x02), stands_encode (.addReg 0xA 0xB), stands_encode (.ldI 0x2F0),
    stands_encode (.ldBVx 0x1), stands_encode (.call 0x300), stands_encode .ret, stands_encode .exit,
    stands_encode (.skp 0x1), stands_encode (.ldDtVx 0x1), stands_encode (.drw 0x0 0x1 0x5),
    stands_encode (.scd 0x4)⟩

/-- Settles O6: the parser reads a spelling back, and a line with the word of `i` was read as `i` itself, since no
other instruction has that word. -/
theorem assemblyMapsEachSpellingToItsWord : Obligations.AssemblyMapsEachSpellingToItsWord := by
  intro i l
  refine ⟨by rw [assemble, parse_spell, Option.map_some], fun h => ?_⟩
  obtain ⟨j, hj, hword⟩ := Option.map_eq_some_iff.1 h
  rw [← encode_injective hword, spell_of_parse hj]

end Machine

end Sys2Proof
end

section
/-! Proofs of the statements about the instruction cycle, the tick controller and the record of errors
(30_encoding.md rule R75; 60_exceptions.md): what an instruction and a cycle do to the tick they run in, and the
induction that makes a tick a run of steps. -/

namespace Sys2Proof.Machine

open Sys2Proof

/-! ## What an instruction does to its tick -/

/-- An instruction raises an error and does nothing else, or leaves the tick's result and the record of errors alone
and the batch too, unless it is the halt sentinel, which ends it (R34, R256). -/
theorem Effect.raise_or_keeps_tick {i : Instr} {s t : State} (h : Effect i s t) :
    (∃ e, t = s.raise e) ∨
      t.tickResult = s.tickResult ∧ t.faultLog = s.faultLog ∧
        (t.batchLeft = s.batchLeft ∧ t.haltedThisTick = s.haltedThisTick ∨
          t.batchLeft = 0 ∧ t.haltedThisTick = true) := by
  cases i
  case ret | call | ldBVx | ldMemVx | ldVxMem | drw =>
    obtain hraise | ⟨-, ht⟩ := h
    · exact .inl hraise
    · rw [ht]
      exact .inr ⟨rfl, rfl, .inl ⟨rfl, rfl⟩⟩
  case ldVxK =>
    obtain ht | ht := h
    all_goals
      rw [ht]
      exact .inr ⟨rfl, rfl, .inl ⟨rfl, rfl⟩⟩
  case exit =>
    have ht : t = _ := h
    rw [ht]
    exact .inr ⟨rfl, rfl, .inr ⟨rfl, rfl⟩⟩
  all_goals
    have ht : t = _ := h
    rw [ht]
    exact .inr ⟨rfl, rfl, .inl ⟨rfl, rfl⟩⟩

/-! ## The end of a cycle -/

theorem State.endTick_eq_tickEnded (s : State) : s.endTick = tickEnded s := s.endTick_eq

theorem State.endTick_of_tickResult {s : State} (h : s.tickResult ≠ none) : s.endTick = s :=
  if_neg fun hend => h hend.2

theorem State.endTick_of_batchLeft {s : State} (h : s.batchLeft ≠ 0) : s.endTick = s :=
  if_neg fun hend => h hend.1

theorem State.endTick_of_open {s : State} (hbatch : s.batchLeft = 0) (hresult : s.tickResult = none) :
    s.endTick = { s with tickResult := some .ok } :=
  if_pos ⟨hbatch, hresult⟩

@[simp] theorem State.endTick_raise (s : State) (e : CoreError) : (s.raise e).endTick = s.raise e :=
  State.endTick_of_tickResult (Option.some_ne_none _)

/-! ## What a cycle does to its tick -/

/-- The tick that stood at `s` is over at `t`: with `Ok` and the record of errors as it was, or with the one error
that the record gained (R266, R267). -/
def TickOver (s t : State) : Prop :=
  t.batchLeft = 0 ∧
    (t.tickResult = some .ok ∧ t.faultLog = s.faultLog ∨
      ∃ e, t.tickResult = some (.error e) ∧ t.faultLog = e :: s.faultLog ∧ t.haltedThisTick = s.haltedThisTick)

/-- The tick that stood at `s` is still running at `t`, one cycle later. -/
def TickGoesOn (s t : State) : Prop :=
  t.batchLeft ≠ 0 ∧ t.batchLeft = s.batchLeft - 1 ∧ t.tickResult = none ∧ t.faultLog = s.faultLog ∧
    t.haltedThisTick = s.haltedThisTick

/-- An error raised after the cycle was counted ends the tick. -/
theorem tickOver_raise {s u : State} (hlog : u.faultLog = s.faultLog)
    (hhalt : u.haltedThisTick = s.haltedThisTick) (e : CoreError) : TickOver s (u.raise e) :=
  ⟨rfl, .inr ⟨e, rfl, congrArg (e :: ·) hlog, hhalt⟩⟩

/-- A cycle ends its tick or counts one cycle of it; the tick's signal is kept. -/
theorem State.cycle_tick {s : State} (hresult : s.tickResult = none) :
    ∃ t : State, s.cycle = .next t ∧ t.sound = s.sound ∧ (TickOver s t ∨ TickGoesOn s t) := by
  obtain ⟨t, ht, hsound⟩ := s.cycle_keeps_sound
  refine ⟨t, ht, hsound, ?_⟩
  obtain ⟨e, -, h⟩ | ⟨r, -, -, h⟩ | ⟨i, u, -, -, hu, h⟩ := s.cycle_cases
  · cases h.symm.trans ht
    exact .inl (tickOver_raise rfl rfl e)
  · cases h.symm.trans ht
    rw [State.endTick_raise]
    exact .inl (tickOver_raise rfl rfl _)
  · cases h.symm.trans ht
    obtain ⟨e, rfl⟩ | ⟨hopen, hlog, hbatch⟩ := (exec_effect hu).raise_or_keeps_tick
    · rw [State.endTick_raise]
      exact .inl (tickOver_raise rfl rfl e)
    · have hopen' : u.tickResult = none := hopen.trans hresult
      by_cases hleft : u.batchLeft = 0
      · rw [State.endTick_of_open hleft hopen']
        exact .inl ⟨hleft, .inl ⟨rfl, hlog⟩⟩
      · rw [State.endTick_of_batchLeft hleft]
        obtain ⟨hcount, hhalt⟩ | ⟨hzero, -⟩ := hbatch
        · exact .inr ⟨hleft, hcount, hopen', hlog, hhalt⟩
        · exact absurd hzero hleft

/-- A cycle whose word decodes runs the instruction at the state with the cycle counted and `pc` past the word. -/
theorem State.cycle_of_decode {s : State} {i : Instr} (hpc : s.pc.toNat ≤ 0x0FFE)
    (hdecode : decode s.variant s.config
      (wordOfBytes (s.byteAt s.pc.toNat) (s.byteAt (s.pc.toNat + 1))) = .ok i) :
    ∃ u : State, exec i s.countCycle.advancePc = .next u ∧ s.cycle = .next (tickEnded u) := by
  obtain ⟨u, hu⟩ := exists_exec_next i s.countCycle.advancePc
  refine ⟨u, hu, ?_⟩
  rw [State.cycle_of_fetch hpc, State.execute_of_decode (s := s.countCycle.advancePc) hdecode, hu,
    afterExecute_next, State.endTick_eq_tickEnded]

/-- A cycle whose word is no instruction raises `DecodeError` once `pc` is past the word (R78). -/
theorem State.cycle_of_reject {s : State} {op : Word} {r : DecodeReject} (hpc : s.pc.toNat ≤ 0x0FFE)
    (hop : wordOfBytes (s.byteAt s.pc.toNat) (s.byteAt (s.pc.toNat + 1)) = op)
    (hreject : decode s.variant s.config op = .error r) :
    s.cycle = .next (s.countCycle.advancePc.raise (.decodeError op s.pc)) := by
  have haddr : s.countCycle.advancePc.instrAddr = s.pc := BitVec.add_sub_cancel s.pc 2
  rw [State.cycle_of_fetch hpc, hop, State.execute_of_reject (s := s.countCycle.advancePc) hreject, haddr,
    afterExecute_next, State.endTick_raise]

/-! ## What a step is -/

/-- A step between ticks, with a batch to run, is the step of the started tick. -/
theorem step_eq_step_startTick {s : State} (h : s.batchLeft = 0) (hb : s.ipf * s.speed ≠ 0) :
    step s = step s.startTick :=
  (step_of_betweenTicks h hb).trans (step_of_inTick (s := s.startTick) hb).symm

/-- The start of a tick with a batch of 0 is its end, with `Ok` (R265). -/
theorem State.endTick_startTick {s : State} (h : s.ipf * s.speed = 0) :
    s.startTick.endTick = { s.startTick with tickResult := some .ok } :=
  State.endTick_of_open h rfl

theorem exists_cycle_next (s : State) : ∃ t : State, s.cycle = .next t :=
  s.cycle_keeps_sound.imp fun _ h => h.1

/-- Every step answers a next state (R274). -/
theorem exists_step_next (s : State) : ∃ t : State, step s = .next t := by
  by_cases h : s.batchLeft = 0
  · by_cases hb : s.ipf * s.speed = 0
    · exact ⟨_, step_of_emptyBatch h hb⟩
    · rw [step_of_betweenTicks h hb]
      exact exists_cycle_next _
  · rw [step_of_inTick h]
    exact exists_cycle_next s

/-- What a step can be: a cycle inside a tick, the first cycle of a tick it starts, or a tick without a cycle. -/
theorem step_cases {s t : State} (h : step s = .next t) :
    s.batchLeft ≠ 0 ∧ s.cycle = .next t ∨ s.startTick.cycle = .next t ∨
      s.ipf * s.speed = 0 ∧ t = { s.startTick with tickResult := some .ok } := by
  by_cases hbatch : s.batchLeft = 0
  · by_cases hb : s.ipf * s.speed = 0
    · cases (step_of_emptyBatch hbatch hb).symm.trans h
      exact .inr (.inr ⟨hb, State.endTick_startTick hb⟩)
    · exact .inr (.inl ((step_of_betweenTicks hbatch hb).symm.trans h))
  · exact .inl ⟨hbatch, (step_of_inTick hbatch).symm.trans h⟩

/-- A run of at least one step depends on the state through its first step only. -/
theorem run_congr {s s' : State} (h : step s = step s') {k : Nat} (hk : k ≠ 0) :
    Sys2Proof.core.run k s = Sys2Proof.core.run k s' := by
  obtain ⟨k, rfl⟩ := Nat.exists_eq_succ_of_ne_zero hk
  obtain ⟨t, ht⟩ := exists_step_next s
  rw [run_succ ht, run_succ (h ▸ ht)]

/-! ## A tick is a run of steps -/

/-- `t` is the first state between ticks of the run from `s`, after `k` steps. -/
def FirstBetweenTicks (s t : State) (k : Nat) : Prop :=
  Sys2Proof.core.run k s = .next t ∧ t.batchLeft = 0 ∧
    ∀ j : Nat, 1 ≤ j → j < k → ∃ u : State, Sys2Proof.core.run j s = .next u ∧ u.batchLeft ≠ 0

theorem firstBetweenTicks_one {s t : State} (h : step s = .next t) (ht : t.batchLeft = 0) :
    FirstBetweenTicks s t 1 :=
  ⟨run_succ h 0, ht, fun j hj hj' => by omega⟩

theorem firstBetweenTicks_succ {s u t : State} {k : Nat} (h : step s = .next u) (hu : u.batchLeft ≠ 0)
    (hrun : FirstBetweenTicks u t k) : FirstBetweenTicks s t (k + 1) := by
  obtain ⟨hend, ht, hbefore⟩ := hrun
  refine ⟨(run_succ h k).trans hend, ht, fun j hj hj' => ?_⟩
  obtain ⟨j, rfl⟩ := Nat.exists_eq_add_of_le' hj
  rw [run_succ h j]
  cases j with
  | zero => exact ⟨u, rfl, hu⟩
  | succ j => exact hbefore (j + 1) (by omega) (by omega)

theorem FirstBetweenTicks.congr {s s' t : State} {k : Nat} (h : step s = step s') (hk : k ≠ 0)
    (hrun : FirstBetweenTicks s' t k) : FirstBetweenTicks s t k := by
  obtain ⟨hend, ht, hbefore⟩ := hrun
  refine ⟨(run_congr h hk).trans hend, ht, fun j hj hj' => ?_⟩
  rw [run_congr h (by omega)]
  exact hbefore j hj hj'

theorem TickOver.of_goesOn {s u t : State} (hu : TickGoesOn s u) (ht : TickOver u t) : TickOver s t := by
  obtain ⟨-, -, -, hlog, hhalt⟩ := hu
  rwa [TickOver, hlog, hhalt] at ht

theorem State.runBatch_succ {s u : State} (h : s.cycle = .next u) (n : Nat) :
    State.runBatch (n + 1) s = if u.batchLeft = 0 then .next u else State.runBatch n u := by
  simp only [State.runBatch, h]
  exact if_congr beq_iff_eq rfl rfl

/-- The induction over a tick's batch: it is a run of steps that ends the tick, and no earlier state of the run
stands between ticks. -/
theorem State.runBatch_is_run {n : Nat} (hn : n ≠ 0) {s : State} (hbatch : s.batchLeft = n)
    (hresult : s.tickResult = none) :
    ∃ (t : State) (k : Nat), State.runBatch n s = .next t ∧ 1 ≤ k ∧ k ≤ n ∧ FirstBetweenTicks s t k ∧
      TickOver s t := by
  induction n generalizing s with
  | zero => exact absurd rfl hn
  | succ n ih =>
    obtain ⟨u, hu, -, hend⟩ := State.cycle_tick hresult
    have hstep : step s = .next u := (step_of_inTick (hbatch ▸ hn)).trans hu
    rw [State.runBatch_succ hu]
    obtain hover | hon := hend
    · rw [if_pos hover.1]
      exact ⟨u, 1, rfl, le_rfl, by omega, firstBetweenTicks_one hstep hover.1, hover⟩
    · have hon' := hon
      obtain ⟨hleft, hcount, hopen, -, -⟩ := hon'
      rw [if_neg hleft]
      obtain ⟨t, k, ht, hk, hkn, hrun, hover⟩ := ih (by omega) (by omega) hopen
      exact ⟨t, k + 1, ht, by omega, by omega, firstBetweenTicks_succ hstep hleft hrun, hover.of_goesOn hon⟩

/-- A whole tick of R262 as a run of steps, and how it ends. -/
theorem State.tick_is_run {s : State} (h : s.batchLeft = 0) (ipf speed : Nat) :
    ∃ (t : State) (k : Nat), s.tick ipf speed = .next t ∧ 1 ≤ k ∧ k ≤ max 1 (ipf * speed) ∧
      FirstBetweenTicks (s.setTickArgs ipf speed) t k ∧ TickOver (s.setTickArgs ipf speed).startTick t := by
  by_cases hb : ipf * speed = 0
  · have hstart := State.endTick_startTick (s := s.setTickArgs ipf speed) hb
    refine ⟨(s.setTickArgs ipf speed).startTick.endTick, 1, ?_, le_rfl, Nat.le_max_left _ _,
      firstBetweenTicks_one (step_of_emptyBatch h hb) ?_, ?_⟩
    · rw [State.tick, hb]
      rfl
    · rw [hstart]
      exact hb
    · rw [hstart]
      exact ⟨hb, .inl ⟨rfl, rfl⟩⟩
  · have hstart : (s.setTickArgs ipf speed).startTick.endTick = (s.setTickArgs ipf speed).startTick :=
      State.endTick_of_batchLeft hb
    obtain ⟨t, k, ht, hk, hkn, hrun, hover⟩ :=
      State.runBatch_is_run hb (s := (s.setTickArgs ipf speed).startTick) rfl rfl
    refine ⟨t, k, ?_, hk, hkn.trans (Nat.le_max_right _ _),
      hrun.congr (step_eq_step_startTick h hb) (by omega), hover⟩
    rw [State.tick, hstart, ht]

/-! ## What a step does to the record of errors -/

/-- A step ends a tick, from its start if the machine stood between ticks, or counts one cycle of it. -/
theorem step_tick {s t : State} (hopen : s.batchLeft ≠ 0 → s.tickResult = none) (h : step s = .next t) :
    ∃ u : State, (s.batchLeft ≠ 0 ∧ u = s ∨ u = s.startTick) ∧ t.sound = u.sound ∧
      (TickOver u t ∨ TickGoesOn u t) := by
  obtain ⟨hbatch, hcycle⟩ | hcycle | ⟨hb, rfl⟩ := step_cases h
  · obtain ⟨t', ht', hsound, hend⟩ := State.cycle_tick (hopen hbatch)
    cases hcycle.symm.trans ht'
    exact ⟨s, .inl ⟨hbatch, rfl⟩, hsound, hend⟩
  · obtain ⟨t', ht', hsound, hend⟩ := State.cycle_tick (s := s.startTick) rfl
    cases hcycle.symm.trans ht'
    exact ⟨s.startTick, .inr rfl, hsound, hend⟩
  · exact ⟨s.startTick, .inr rfl, rfl, .inl ⟨hb, .inl ⟨rfl, rfl⟩⟩⟩

/-! ## The statements -/

/-- Settles O7: the cycle is the one of `State.cycle_of_decode`, in the tick that runs or from the started one. -/
theorem stepRunsTheDecodedInstruction : Obligations.StepRunsTheDecodedInstruction := by
  intro s i hpc hdecode
  refine ⟨fun hbatch => ?_, fun hbatch hb => ?_⟩
  · rw [step_of_inTick hbatch]
    exact State.cycle_of_decode hpc hdecode
  · rw [step_of_betweenTicks hbatch hb]
    exact State.cycle_of_decode (s := s.startTick) hpc hdecode

/-- Settles O8: the decoder rejects the word, so the cycle raises `DecodeError` once `pc` is past it. -/
theorem decodeErrorLeavesPcAdvanced : Obligations.DecodeErrorLeavesPcAdvanced := by
  intro s op hbatch hpc hop hnone
  refine ⟨s.countCycle.advancePc.raise (.decodeError op s.pc), ?_, State.tookError_raise s.countCycle.advancePc _⟩
  rw [step_of_inTick hbatch]
  cases hdecode : decode s.variant s.config op with
  | error r => exact State.cycle_of_reject hpc hop.symm hdecode
  | ok i =>
    obtain ⟨hwf, hword⟩ := decode_eq_ok_iff.1 hdecode
    exact absurd hword (hnone i hwf)

/-- Settles O9: the fetch fails, so the cycle raises its error with `pc` where it stood. -/
theorem fetchErrorLeavesPcUnchanged : Obligations.FetchErrorLeavesPcUnchanged := by
  intro s hbatch hpc
  have hfetch : s.fetchError = some (.addressError (if 0x0FFF < s.pc.toNat then s.pc else s.pc + 1)) := if_pos hpc
  refine ⟨_, ?_, State.tookError_raise s.countCycle _⟩
  rw [step_of_inTick hbatch, State.cycle_of_fetchError hfetch]

/-- Settles O10: every case of a step and every arm of `exec` answers a next state. -/
theorem nothingStopsTheMachine : Obligations.NothingStopsTheMachine :=
  ⟨exists_step_next, exists_exec_next⟩

/-- Settles O11: an instruction that does not raise leaves the tick's result open, and raising is all else. -/
theorem errorsArePrecise : Obligations.ErrorsArePrecise := by
  intro i s t e hopen hexec hresult
  obtain ⟨e', rfl⟩ | ⟨hkeep, -, -⟩ := (exec_effect hexec).raise_or_keeps_tick
  · rw [State.raise_tickResult] at hresult
    cases hresult
    exact s.tookError_raise e
  · rw [hkeep, hopen] at hresult
    cases hresult

/-- Settles O12: the state is `State.startTick`, from which the step goes on. -/
theorem tickStartCountsTheTimers : Obligations.TickStartCountsTheTimers := by
  intro s hbatch
  refine ⟨s.startTick, rfl, rfl, rfl, rfl, rfl, rfl, rfl, rfl, fun _ => rfl, rfl, fun _ => rfl, ⟨rfl, rfl⟩,
    ⟨fun _ _ => rfl, rfl, rfl⟩, ⟨rfl, rfl, rfl, rfl, rfl⟩, rfl, fun hb => ?_, fun hb => ?_⟩
  · exact step_eq_step_startTick hbatch hb
  · rw [step_of_emptyBatch hbatch hb, State.endTick_startTick hb]

/-- Settles O13: the batch is the run of `State.tick_is_run`, at whose end the tick has a result. -/
theorem aTickIsARunOfSteps : Obligations.ATickIsARunOfSteps := by
  intro s ipf speed hbatch
  obtain ⟨t, k, ht, hk, hkn, ⟨hrun, hend, hbefore⟩, -, hresult⟩ := State.tick_is_run hbatch ipf speed
  refine ⟨t, k, ht, hk, hkn, hrun, hend, ?_, hbefore⟩
  obtain ⟨hok, -⟩ | ⟨e, herror, -, -⟩ := hresult
  · exact hok ▸ Option.some_ne_none _
  · exact herror ▸ Option.some_ne_none _

/-- Settles O14: the run of `State.tick_is_run` ends the tick, from a start that keeps the record. -/
theorem aTickAddsAtMostOneError : Obligations.ATickAddsAtMostOneError := by
  intro s t ipf speed hbatch h
  obtain ⟨t', k, ht', -, -, -, -, hresult⟩ := State.tick_is_run hbatch ipf speed
  cases h.symm.trans ht'
  exact hresult.imp_right fun ⟨e, herror, hlog, _⟩ => ⟨e, herror, hlog⟩

/-- Settles O21: a step that ends its tick adds the error of its result, and one that does not leaves no result. -/
theorem theFaultRecordIsSticky : Obligations.TheFaultRecordIsSticky := by
  intro s t hopen h
  obtain ⟨u, hu, -, hend⟩ := step_tick hopen h
  have hlog : u.faultLog = s.faultLog := by
    obtain ⟨-, rfl⟩ | rfl := hu
    · rfl
    · exact s.startTick_faultLog
  rw [← hlog]
  obtain ⟨-, ⟨hok, hsame⟩ | ⟨e, herror, hgain, -⟩⟩ | ⟨-, -, hnone, hsame, -⟩ := hend
  · exact .inl ⟨hsame, fun e he => by rw [hok] at he; cases he⟩
  · exact .inr ⟨e, hgain, herror⟩
  · exact .inl ⟨hsame, fun e he => by rw [hnone] at he; cases he⟩

/-- The word a constructed machine fetches first is 0, since nothing lies above the font. -/
theorem State.firstWord_construct (v : Variant) (c : Config) :
    wordOfBytes ((State.construct v c).byteAt 0x200) ((State.construct v c).byteAt 0x201) = 0 := by
  have hbyte : ∀ a : Nat, fontEnd ≤ a → (State.construct v c).byteAt a = 0 :=
    fun a ha => Memory.background_above_font ha
  rw [hbyte 0x200 (by decide), hbyte 0x201 (by decide)]
  rfl

/-- Settles O59: the tick's first cycle fetches the word 0, which is no instruction, and the error ends the tick. -/
theorem noProgramIsADecodeError : Obligations.NoProgramIsADecodeError := by
  intro v c ipf speed hb
  obtain ⟨n, hn⟩ := Nat.exists_eq_succ_of_ne_zero hb
  have hreject : decode v c 0 = .error (.noSuchWord 0) := rfl
  have hcycle := State.cycle_of_reject (s := ((State.construct v c).setTickArgs ipf speed).startTick)
    (show (0x200 : Word).toNat ≤ 0x0FFE by decide) (State.firstWord_construct v c) hreject
  refine ⟨((State.construct v c).setTickArgs ipf speed).startTick.countCycle.advancePc.raise
    (.decodeError 0 0x200), ?_, rfl, rfl⟩
  rw [State.tick, State.endTick_of_batchLeft hb, hn, State.runBatch_succ hcycle, if_pos (State.raise_batchLeft _ _)]
  rfl

end Sys2Proof.Machine
end

section
/-! Proofs of the statements about every instruction and every step: which fields an instruction writes, then the
invariant that every step and every host operation keeps. -/

namespace Sys2Proof.Machine

open Sys2Proof

/-! ## What an instruction leaves as it was -/

section

variable {i : Instr} {s t : State}

/-- No instruction writes the keys, the variant, the parameters or the arguments of a tick. -/
theorem Effect.keeps_setup (h : Effect i s t) : sameSetup s t := by
  cases i
  case ret | call | ldBVx | ldMemVx | ldVxMem | drw =>
    obtain ⟨e, rfl⟩ | ⟨-, ht⟩ := h
    · exact ⟨rfl, rfl, rfl, rfl, rfl⟩
    · rw [ht]
      exact ⟨rfl, rfl, rfl, rfl, rfl⟩
  case ldVxK =>
    obtain ht | ht := h
    all_goals
      rw [ht]
      exact ⟨rfl, rfl, rfl, rfl, rfl⟩
  all_goals
    have ht : t = _ := h
    rw [ht]
    exact ⟨rfl, rfl, rfl, rfl, rfl⟩

theorem Effect.config_eq (h : Effect i s t) : t.config = s.config := by
  obtain ⟨-, -, hconfig, -⟩ := h.keeps_setup
  exact hconfig

/-- Only FX33 and FX55 write memory (R58). -/
theorem Effect.mem_eq (h : Effect i s t) (hi : ∀ x : Nibble, i ≠ .ldBVx x ∧ i ≠ .ldMemVx x) :
    t.mem = s.mem := by
  cases i
  case ldBVx x => exact absurd rfl (hi x).1
  case ldMemVx x => exact absurd rfl (hi x).2
  case ret | call | ldVxMem | drw =>
    obtain ⟨e, rfl⟩ | ⟨-, ht⟩ := h
    · exact s.raise_mem e
    · rw [ht]
  case ldVxK =>
    obtain ht | ht := h
    all_goals rw [ht]
  all_goals
    have ht : t = _ := h
    rw [ht]

/-- Only 00FE and 00FF write the mode (R28). -/
theorem Effect.mode_eq (h : Effect i s t) (hlow : i ≠ .low) (hhigh : i ≠ .high) : t.mode = s.mode := by
  cases i
  case low => exact absurd rfl hlow
  case high => exact absurd rfl hhigh
  case ret | call | ldBVx | ldMemVx | ldVxMem | drw =>
    obtain ⟨e, rfl⟩ | ⟨-, ht⟩ := h
    · exact s.raise_mode e
    · rw [ht]
  case ldVxK =>
    obtain ht | ht := h
    all_goals rw [ht]
  all_goals
    have ht : t = _ := h
    rw [ht]

/-- I after a bulk transfer: advanced in Baseline only (R144, R145). -/
theorem State.indexAfterBulk_eq (s : State) (x : Nibble) :
    s.indexAfterBulk x = if s.variant = .baseline then s.i + BitVec.ofNat 16 (x.toNat + 1) else s.i := by
  unfold State.indexAfterBulk State.quirk State.indexAddr
  cases s.variant <;> rfl

/-- Only ANNN, FX1E and FX29 write I, and in Baseline the bulk transfers (R24). -/
theorem Effect.index_eq (h : Effect i s t)
    (hi : ∀ (x : Nibble) (nnn : Addr12), i ≠ .ldI nnn ∧ i ≠ .addIVx x ∧ i ≠ .ldFVx x ∧
      (s.variant = .baseline → i ≠ .ldMemVx x ∧ i ≠ .ldVxMem x)) : t.i = s.i := by
  cases i
  case ldI nnn =>
    obtain ⟨hne, -⟩ := hi 0 nnn
    exact absurd rfl hne
  case addIVx x =>
    obtain ⟨-, hne, -⟩ := hi x 0
    exact absurd rfl hne
  case ldFVx x =>
    obtain ⟨-, -, hne, -⟩ := hi x 0
    exact absurd rfl hne
  case ldMemVx x =>
    obtain ⟨-, -, -, hbulk⟩ := hi x 0
    obtain ⟨e, rfl⟩ | ⟨-, ht⟩ := h
    · exact s.raise_i e
    · rw [ht]
      exact (s.indexAfterBulk_eq x).trans (if_neg fun hv => (hbulk hv).1 rfl)
  case ldVxMem x =>
    obtain ⟨-, -, -, hbulk⟩ := hi x 0
    obtain ⟨e, rfl⟩ | ⟨-, ht⟩ := h
    · exact s.raise_i e
    · rw [ht]
      exact (s.indexAfterBulk_eq x).trans (if_neg fun hv => (hbulk hv).2 rfl)
  case ret | call | ldBVx | drw =>
    obtain ⟨e, rfl⟩ | ⟨-, ht⟩ := h
    · exact s.raise_i e
    · rw [ht]
  case ldVxK =>
    obtain ht | ht := h
    all_goals rw [ht]
  all_goals
    have ht : t = _ := h
    rw [ht]

/-- Only FX15 writes DT and only FX18 writes ST (R26). -/
theorem Effect.timers_eq (h : Effect i s t) :
    ((∀ x : Nibble, i ≠ .ldDtVx x) → t.dt = s.dt) ∧ ((∀ x : Nibble, i ≠ .ldStVx x) → t.st = s.st) := by
  cases i
  case ldDtVx x =>
    have ht : t = _ := h
    rw [ht]
    exact ⟨fun hi => absurd rfl (hi x), fun _ => rfl⟩
  case ldStVx x =>
    have ht : t = _ := h
    rw [ht]
    exact ⟨fun _ => rfl, fun hi => absurd rfl (hi x)⟩
  case ret | call | ldBVx | ldMemVx | ldVxMem | drw =>
    obtain ⟨e, rfl⟩ | ⟨-, ht⟩ := h
    · exact ⟨fun _ => rfl, fun _ => rfl⟩
    · rw [ht]
      exact ⟨fun _ => rfl, fun _ => rfl⟩
  case ldVxK =>
    obtain ht | ht := h
    all_goals
      rw [ht]
      exact ⟨fun _ => rfl, fun _ => rfl⟩
  all_goals
    have ht : t = _ := h
    rw [ht]
    exact ⟨fun _ => rfl, fun _ => rfl⟩

/-- Only CALL writes a slot of the return stack, and never slot 15, since it needs SP below it; only CALL and RET
write SP (R25, D3). -/
theorem Effect.stack_eq (h : Effect i s t) :
    t.stack[15] = s.stack[15] ∧ ((∀ nnn : Addr12, i ≠ .call nnn) → t.stack = s.stack) ∧
      ((∀ nnn : Addr12, i ≠ .call nnn) → i ≠ .ret → t.sp = s.sp) := by
  cases i
  case call nnn =>
    refine ⟨?_, fun hi => absurd rfl (hi nnn), fun hi => absurd rfl (hi nnn)⟩
    obtain ⟨e, rfl⟩ | ⟨hsp, ht⟩ := h
    · rfl
    · rw [ht]
      exact Vector.getElem_set_ne s.sp.isLt (by decide) fun heq => hsp (Fin.ext heq)
  case ret =>
    obtain ⟨e, rfl⟩ | ⟨-, ht⟩ := h
    · exact ⟨rfl, fun _ => rfl, fun _ _ => rfl⟩
    · rw [ht]
      exact ⟨rfl, fun _ => rfl, fun _ hret => absurd rfl hret⟩
  case ldBVx | ldMemVx | ldVxMem | drw =>
    obtain ⟨e, rfl⟩ | ⟨-, ht⟩ := h
    · exact ⟨rfl, fun _ => rfl, fun _ _ => rfl⟩
    · rw [ht]
      exact ⟨rfl, fun _ => rfl, fun _ _ => rfl⟩
  case ldVxK =>
    obtain ht | ht := h
    all_goals
      rw [ht]
      exact ⟨rfl, fun _ => rfl, fun _ _ => rfl⟩
  all_goals
    have ht : t = _ := h
    rw [ht]
    exact ⟨rfl, fun _ => rfl, fun _ _ => rfl⟩

/-- A raster instruction raises its error or sets dirty (R217). -/
theorem Effect.dirty_of_raster (h : Effect i s t) (hi : rasterInstr i = true) :
    (∃ e, t = s.raise e) ∨ t.dirty = true := by
  cases i
  case drw =>
    obtain hraise | ⟨-, ht⟩ := h
    · exact .inl hraise
    · exact .inr (ht ▸ rfl)
  case cls | scd | scr | scl | low | high =>
    have ht : t = _ := h
    exact .inr (ht ▸ rfl)
  all_goals cases hi

/-- No other instruction writes the buffer, the mode or dirty (R29). -/
theorem Effect.sameScreen_of_not_raster (h : Effect i s t) (hi : rasterInstr i = false) : sameScreen s t := by
  cases i
  case cls | scd | scr | scl | low | high | drw => cases hi
  case ret | call | ldBVx | ldMemVx | ldVxMem =>
    obtain ⟨e, rfl⟩ | ⟨-, ht⟩ := h
    · exact ⟨s.pixel_raise e, rfl, rfl⟩
    · rw [ht]
      exact ⟨fun _ _ => rfl, rfl, rfl⟩
  case ldVxK =>
    obtain ht | ht := h
    all_goals
      rw [ht]
      exact ⟨fun _ _ => rfl, rfl, rfl⟩
  all_goals
    have ht : t = _ := h
    rw [ht]
    exact ⟨fun _ _ => rfl, rfl, rfl⟩

/-! ## What an instruction does to memory -/

/-- What an instruction that may write memory does to it: nothing, or stores of bytes from I on that its check let
through. -/
theorem Effect.mem_cases (h : Effect i s t) :
    t.mem = s.mem ∨ ∃ (n : Nat) (bs : List Byte), s.storeError (s.indexAddrs n) = none ∧
      t.mem = (s.storeCells ((s.indexAddrs n).zip bs)).mem := by
  cases i
  case ldBVx | ldMemVx =>
    obtain ⟨e, rfl⟩ | ⟨hcheck, ht⟩ := h
    · exact .inl (s.raise_mem e)
    · rw [ht]
      exact .inr ⟨_, _, hcheck, rfl⟩
  all_goals exact .inl (h.mem_eq fun x => ⟨Instr.noConfusion, Instr.noConfusion⟩)

theorem byteAt_congr (hmem : t.mem = s.mem) (hconfig : t.config = s.config) (a : Nat) : t.byteAt a = s.byteAt a := by
  rw [State.byteAt, State.byteAt, hmem, hconfig]

/-- Unless the policy is `Write`, no instruction changes a byte of the font (R55). -/
theorem Effect.font_kept (h : Effect i s t) (hp : s.config.fontRegionWrite ≠ .write) {a : Nat} (ha : a < fontEnd) :
    t.byteAt a = s.byteAt a := by
  obtain hmem | ⟨n, bs, -, hmem⟩ := h.mem_cases
  · exact byteAt_congr hmem h.config_eq a
  · rw [← s.byteAt_storeCells_font ((s.indexAddrs n).zip bs) hp ha]
    exact byteAt_congr hmem (h.config_eq.trans (s.storeCells_config _).symm) a

/-- Every instruction keeps the canonical form of memory. -/
theorem Effect.mem_wf (h : Effect i s t) (hs : s.mem.wf s.config.fontTable = true) :
    t.mem.wf t.config.fontTable = true := by
  rw [h.config_eq]
  obtain hmem | ⟨n, bs, hcheck, hmem⟩ := h.mem_cases
  · rwa [hmem]
  · obtain ⟨hin, -⟩ := State.storeError_eq_none.1 hcheck
    rw [hmem]
    exact State.mem_wf_storeCells (fun cell hcell => hin cell.1 (List.of_mem_zip hcell).1) hs

end

/-- No cycle writes the keys, the variant, the parameters or the arguments of a tick. -/
theorem State.cycle_sameSetup {s t : State} (h : s.cycle = .next t) : sameSetup s t := by
  obtain ⟨e, -, hcycle⟩ | ⟨r, -, -, hcycle⟩ | ⟨i, u, -, -, hexec, hcycle⟩ := s.cycle_cases
  · cases hcycle.symm.trans h
    exact ⟨rfl, rfl, rfl, rfl, rfl⟩
  · cases hcycle.symm.trans h
    rw [State.endTick_raise]
    exact ⟨rfl, rfl, rfl, rfl, rfl⟩
  · cases hcycle.symm.trans h
    rw [State.endTick_eq_tickEnded]
    exact (exec_effect hexec).keeps_setup

/-! ## The part of the invariant that is not about the tick -/

/-- Canonical memory, the immutable font and Baseline in Low mode: the clauses of `State.Inv` that do not read the
tick controller's fields. -/
structure State.DataInv (s : State) : Prop where
  mem_wf : s.mem.wf s.config.fontTable = true
  font_kept : s.config.fontRegionWrite ≠ .write →
    ∀ a : Nat, a < fontEnd → s.byteAt a = Memory.background s.config.fontTable a
  baseline_low : s.variant = .baseline → s.config.extendedOpcodesInBaseline = false → s.mode = .low

theorem State.Inv.dataInv {s : State} (h : s.Inv) : s.DataInv := ⟨h.mem_wf, h.font_kept, h.baseline_low⟩

theorem State.DataInv.congr {s t : State} (h : s.DataInv) (hmem : t.mem = s.mem) (hconfig : t.config = s.config)
    (hvariant : t.variant = s.variant) (hmode : t.mode = s.mode) : t.DataInv where
  mem_wf := by rw [hmem, hconfig]; exact h.mem_wf
  font_kept := by
    intro hp a ha
    rw [byteAt_congr hmem hconfig, hconfig]
    exact h.font_kept (hconfig ▸ hp) a ha
  baseline_low := by rw [hvariant, hconfig, hmode]; exact h.baseline_low

/-- The modes are switched by superset instructions, which Baseline does not decode (D7). -/
theorem Effect.dataInv {i : Instr} {s t : State} (h : Effect i s t) (hwf : i.wellFormed s.variant s.config = true)
    (hs : s.DataInv) : t.DataInv := by
  have ⟨_, hvariant, hconfig, _⟩ := h.keeps_setup
  refine ⟨h.mem_wf hs.mem_wf, fun hp a ha => ?_, fun hbase hext => ?_⟩
  · rw [hconfig] at hp ⊢
    exact (h.font_kept hp ha).trans (hs.font_kept hp a ha)
  · rw [hvariant] at hbase
    rw [hconfig] at hext
    have hplain : i.extendedOnly = false := by simpa [Instr.wellFormed, hbase, hext] using hwf
    rw [h.mode_eq (fun hi => by cases hi ▸ hplain) (fun hi => by cases hi ▸ hplain)]
    exact hs.baseline_low hbase hext

theorem State.DataInv.of_cycle {s t : State} (hs : s.DataInv) (h : s.cycle = .next t) : t.DataInv := by
  obtain ⟨e, -, hcycle⟩ | ⟨r, -, -, hcycle⟩ | ⟨i, u, -, hdecode, hexec, hcycle⟩ := s.cycle_cases
  · cases hcycle.symm.trans h
    exact hs.congr rfl rfl rfl rfl
  · cases hcycle.symm.trans h
    rw [State.endTick_raise]
    exact hs.congr rfl rfl rfl rfl
  · cases hcycle.symm.trans h
    have hstart : s.countCycle.advancePc.DataInv := hs.congr rfl rfl rfl rfl
    have hu : u.DataInv := (exec_effect hexec).dataInv (decode_eq_ok_iff.1 hdecode).1 hstart
    rw [State.endTick_eq_tickEnded]
    exact hu.congr rfl rfl rfl rfl

theorem State.DataInv.of_step {s t : State} (hs : s.DataInv) (h : step s = .next t) : t.DataInv := by
  have hstart : s.startTick.DataInv := hs.congr rfl rfl rfl rfl
  obtain ⟨-, hcycle⟩ | hcycle | ⟨-, rfl⟩ := step_cases h
  · exact hs.of_cycle hcycle
  · exact hstart.of_cycle hcycle
  · exact hstart.congr rfl rfl rfl rfl

/-! ## The whole invariant -/

/-- A tick that is over meets the clauses about the tick: the halt sentinel's tick returned `Ok`, and an error is in
the record. -/
theorem State.DataInv.inv_of_tickOver {u t : State} (ht : t.DataInv) (hover : TickOver u t)
    (hhalt : u.haltedThisTick = false) : t.Inv := by
  obtain ⟨hbatch, ⟨hok, -⟩ | ⟨e, herror, hlog, hkept⟩⟩ := hover
  · exact { ht with
      in_tick := fun h => absurd hbatch h
      halted_ok := fun _ => hok
      error_recorded := fun e he => by rw [hok] at he; cases he }
  · exact { ht with
      in_tick := fun h => absurd hbatch h
      halted_ok := fun h => by rw [hkept, hhalt] at h; cases h
      error_recorded := fun e' he => by
        rw [herror] at he
        cases he
        exact hlog ▸ List.mem_cons_self }

theorem State.DataInv.inv_of_tickGoesOn {u t : State} (ht : t.DataInv) (hon : TickGoesOn u t)
    (hhalt : u.haltedThisTick = false) (hsound : t.sound ≠ none) : t.Inv := by
  obtain ⟨-, -, hnone, -, hkept⟩ := hon
  exact { ht with
    in_tick := fun _ => ⟨hnone, hkept.trans hhalt, hsound⟩
    halted_ok := fun h => by rw [hkept, hhalt] at h; cases h
    error_recorded := fun e he => by rw [hnone] at he; cases he }

/-- A change that leaves the tick controller's fields and the record of errors alone keeps the clauses about them. -/
theorem State.Inv.congr_tick {s t : State} (hs : s.Inv) (ht : t.DataInv) (hbatch : t.batchLeft = s.batchLeft)
    (hresult : t.tickResult = s.tickResult) (hhalt : t.haltedThisTick = s.haltedThisTick)
    (hsound : t.sound = s.sound) (hlog : t.faultLog = s.faultLog) : t.Inv :=
  { ht with
    in_tick := by rw [hbatch, hresult, hhalt, hsound]; exact hs.in_tick
    halted_ok := by rw [hhalt, hresult]; exact hs.halted_ok
    error_recorded := by rw [hresult, hlog]; exact hs.error_recorded }

/-- A load stays inside memory: at most 3584 bytes from 0x200 on (R293). -/
theorem State.DataInv.load {s : State} (hs : s.DataInv) (bytes : List Byte) : (s.load bytes).DataInv where
  mem_wf := by
    refine Memory.wf_writeFrom ?_ hs.mem_wf
    have hlen : (bytes.take maxProgramLen).length ≤ maxProgramLen := List.length_take_le _ _
    have hmax : maxProgramLen = memSize - programStart := rfl
    have hstart : programStart ≤ memSize := by decide
    omega
  font_kept := by
    intro hp a ha
    refine Eq.trans ?_ (hs.font_kept hp a ha)
    have hstart : fontEnd ≤ programStart := by decide
    exact (Memory.read_writeFrom s.mem programStart (bytes.take maxProgramLen) a).trans (if_neg (by omega))
  baseline_low := hs.baseline_low

theorem State.DataInv.clearProgram {s : State} (hs : s.DataInv) : s.clearProgram.DataInv where
  mem_wf := Memory.wf_filter _ hs.mem_wf
  font_kept := by
    intro hp a ha
    have hstart : fontEnd ≤ programStart := by decide
    exact ((s.byteAt_clearProgram a).trans (if_pos (by omega))).trans (hs.font_kept hp a ha)
  baseline_low := hs.baseline_low

theorem State.inv_construct (v : Variant) (c : Config) : (State.construct v c).Inv where
  mem_wf := rfl
  font_kept := fun _ _ _ => rfl
  baseline_low := fun _ _ => rfl
  in_tick := fun h => absurd rfl h
  halted_ok := fun h => by cases h
  error_recorded := fun _ h => by cases h

/-! ## Canonical memories -/

section

variable {g : Glyphs}

theorem Memory.wfFrom_cons_iff {lo k : Nat} {b : Byte} {m : Memory} :
    Memory.wfFrom g lo ((k, b) :: m) = true ↔
      lo ≤ k ∧ k < memSize ∧ b ≠ Memory.background g k ∧ Memory.wfFrom g (k + 1) m = true := by
  simp only [Memory.wfFrom, Bool.and_eq_true, decide_eq_true_eq, and_assoc]

theorem Memory.read_cons_self (k : Nat) (b : Byte) (m : Memory) : Memory.read ((k, b) :: m) g k = b :=
  if_pos rfl

theorem Memory.read_cons_of_ne {a k : Nat} (h : a ≠ k) (b : Byte) (m : Memory) :
    Memory.read ((k, b) :: m) g a = Memory.read m g a :=
  if_neg h

/-- Below the lower bound of a canonical list nothing is listed. -/
theorem Memory.read_of_lt {lo : Nat} {m : Memory} (hm : Memory.wfFrom g lo m = true) {a : Nat} (ha : a < lo) :
    m.read g a = Memory.background g a := by
  induction m generalizing lo with
  | nil => rfl
  | cons cell m ih =>
    obtain ⟨k, b⟩ := cell
    obtain ⟨hlo, -, -, htail⟩ := Memory.wfFrom_cons_iff.1 hm
    rw [Memory.read_cons_of_ne (by omega)]
    exact ih htail (by omega)

/-- The first entry of a canonical list does not stand below all the entries of a list that reads alike: it would be
an entry equal to what the unlisted address reads as. -/
theorem Memory.first_not_lt {lo k : Nat} {b : Byte} {m m' : Memory} (hm : Memory.wfFrom g lo ((k, b) :: m) = true)
    (hm' : Memory.wfFrom g (k + 1) m' = true)
    (h : ∀ a : Nat, Memory.read ((k, b) :: m) g a = Memory.read m' g a) : False := by
  obtain ⟨-, -, hb, -⟩ := Memory.wfFrom_cons_iff.1 hm
  have hk := h k
  rw [Memory.read_cons_self, Memory.read_of_lt hm' (Nat.lt_succ_self k)] at hk
  exact hb hk

/-- Canonical lists that read alike have the same first entry, and their rests read alike. -/
theorem Memory.eq_of_read_eq {lo : Nat} {m m' : Memory} (hm : Memory.wfFrom g lo m = true)
    (hm' : Memory.wfFrom g lo m' = true) (h : ∀ a : Nat, m.read g a = m'.read g a) : m = m' := by
  induction m generalizing lo m' with
  | nil =>
    cases m' with
    | nil => rfl
    | cons cell m' => exact (Memory.first_not_lt hm' rfl fun a => (h a).symm).elim
  | cons cell m ih =>
    obtain ⟨k, b⟩ := cell
    cases m' with
    | nil => exact (Memory.first_not_lt hm rfl h).elim
    | cons cell' m' =>
      obtain ⟨k', b'⟩ := cell'
      obtain ⟨-, hcell⟩ := Memory.wfFrom_cons_iff.1 hm
      obtain ⟨-, hcell'⟩ := Memory.wfFrom_cons_iff.1 hm'
      rcases Nat.lt_trichotomy k k' with hlt | rfl | hgt
      · exact (Memory.first_not_lt hm (Memory.wfFrom_cons_iff.2 ⟨hlt, hcell'⟩) h).elim
      · obtain ⟨-, -, htail⟩ := hcell
        obtain ⟨-, -, htail'⟩ := hcell'
        have hbyte : b = b' := (Memory.read_cons_self k b m).symm.trans ((h k).trans (Memory.read_cons_self k b' m'))
        have hrest : ∀ a : Nat, Memory.read m g a = Memory.read m' g a := by
          intro a
          by_cases ha : a = k
          · rw [Memory.read_of_lt htail (by omega), Memory.read_of_lt htail' (by omega)]
          · rw [← Memory.read_cons_of_ne ha b m, h a, Memory.read_cons_of_ne ha]
        rw [hbyte, ih htail htail' hrest]
      · exact (Memory.first_not_lt hm' (Memory.wfFrom_cons_iff.2 ⟨hgt, hcell⟩) fun a => (h a).symm).elim

end

/-! ## The statements -/

/-- Settles O15: the values of construction meet each clause. -/
theorem invariantHoldsAtReset : Obligations.InvariantHoldsAtReset :=
  ⟨State.inv_construct _ _, State.inv_construct⟩

/-- Settles O16: a step keeps the clauses about memory, font and mode (`State.DataInv.of_step`), and it ends a tick or
counts a cycle of one that the halt sentinel has not ended, which gives the clauses about the tick. -/
theorem stepKeepsTheInvariant : Obligations.StepKeepsTheInvariant := by
  intro s t hs h
  have ht : t.DataInv := hs.dataInv.of_step h
  obtain ⟨u, hu, hsound, hend⟩ := step_tick (fun hbatch => (hs.in_tick hbatch).1) h
  have hstart : u.haltedThisTick = false ∧ u.sound ≠ none := by
    obtain ⟨hbatch, rfl⟩ | rfl := hu
    · exact (hs.in_tick hbatch).2
    · exact ⟨rfl, Option.some_ne_none _⟩
  obtain ⟨hhalt, hsignal⟩ := hstart
  obtain hover | hon := hend
  · exact ht.inv_of_tickOver hover hhalt
  · exact ht.inv_of_tickGoesOn hon hhalt (hsound ▸ hsignal)

/-- Settles O17: no host operation writes the tick's fields, and the load and the clear keep memory canonical and
the font as it was. -/
theorem hostMovesKeepTheInvariant : Obligations.HostMovesKeepTheInvariant := by
  intro s t a hs h
  have hdata := hs.dataInv
  unfold State.drive at h
  split at h
  · cases a with
    | writeKey k pressed => cases h; exact hs.congr_tick (hdata.congr rfl rfl rfl rfl) rfl rfl rfl rfl rfl
    | clearDirty => cases h; exact hs.congr_tick (hdata.congr rfl rfl rfl rfl) rfl rfl rfl rfl rfl
    | load bytes => cases h; exact hs.congr_tick (hdata.load bytes) rfl rfl rfl rfl rfl
    | loadFails => cases h
    | clearProgram => cases h; exact hs.congr_tick hdata.clearProgram rfl rfl rfl rfl rfl
  · cases h

/-- Settles O18: the lists agree entry by entry (`Memory.eq_of_read_eq`). -/
theorem canonicalMemoriesThatReadAlikeAreEqual : Obligations.CanonicalMemoriesThatReadAlikeAreEqual :=
  fun _ _ _ hm hm' h => Memory.eq_of_read_eq hm hm' h

/-- Settles O19: neither the start of a tick nor a cycle writes them. -/
theorem noStepWritesSetup : Obligations.NoStepWritesSetup := by
  intro s t h
  obtain ⟨-, hcycle⟩ | hcycle | ⟨-, rfl⟩ := step_cases h
  · exact State.cycle_sameSetup hcycle
  · exact State.cycle_sameSetup (s := s.startTick) hcycle
  · exact ⟨rfl, rfl, rfl, rfl, rfl⟩

/-- Settles O20: the clauses of `Effect.stack_eq`. -/
theorem onlyCallAndReturnTouchTheStack : Obligations.OnlyCallAndReturnTouchTheStack :=
  fun _ _ _ h => (exec_effect h).stack_eq

/-- Settles O22: a raster instruction that leaves the record alone did not raise, so it set dirty. -/
theorem onlyRasterInstructionsMarkDirty : Obligations.OnlyRasterInstructionsMarkDirty := by
  intro i s t h
  have heffect := exec_effect h
  refine ⟨fun hi hlog => ?_, heffect.sameScreen_of_not_raster, fun hdirty => ?_⟩
  · obtain ⟨e, rfl⟩ | hset := heffect.dirty_of_raster hi
    · exact absurd hlog (List.cons_ne_self e s.faultLog)
    · exact hset
  · cases hi : rasterInstr i with
    | true =>
      obtain ⟨e, rfl⟩ | hset := heffect.dirty_of_raster hi
      · exact hdirty
      · exact hset
    | false =>
      obtain ⟨-, -, hkept⟩ := heffect.sameScreen_of_not_raster hi
      exact hkept.trans hdirty

/-- Settles O23: one lemma for each of the fields. -/
theorem writersOfMemoryModeIndexAndTimers : Obligations.WritersOfMemoryModeIndexAndTimers := by
  intro i s t h
  have heffect := exec_effect h
  exact ⟨heffect.mem_eq, heffect.mode_eq, heffect.index_eq, heffect.timers_eq⟩

/-- Settles O24: the stores of an instruction drop or refuse the bytes of the font (`Effect.font_kept`). -/
theorem noInstructionWritesTheFont : Obligations.NoInstructionWritesTheFont :=
  fun _ _ _ hp h _ ha => (exec_effect h).font_kept hp (Nat.lt_succ_of_le ha)

end Sys2Proof.Machine
end

section
/-! Proofs of the statements about the random draw and the memory instructions (40_alu.md, 41_index_memory.md): the
checks of an instruction's addresses, and what its stores and loads do. -/

namespace Sys2Proof.Machine

open Sys2Proof

/-- Settles O29: one register write, with the draw used up. -/
theorem randomResult : Obligations.RandomResult := by
  intro s x nn
  have hresult : (s.randomResult s.draw x nn).reg x = Config.rngDraw s.rngDraws &&& nn :=
    s.reg_setReg_self x (s.draw &&& nn)
  obtain ⟨hpc, hi, hmem, hstack, htimers, hscreen, hsetup, htick, -⟩ := s.onlyRegs_setReg x (s.draw &&& nn)
  refine ⟨⟨s.randomResult s.draw x nn, rfl, hresult, s.sameRegsBut_setReg x _, rfl, fun hnn => ?_,
    hpc, hi, hmem, hstack, htimers, hscreen, hsetup, htick⟩, stands_encode (.rnd x nn)⟩
  rw [hresult, hnn]
  exact BitVec.and_zero

/-! ## The checks of the addresses I, I + 1, … -/

section

variable {s : State} {n k : Nat}

theorem State.loadError_index_eq_none (h : ∀ k : Nat, k < n → inMemory (s.i + BitVec.ofNat 16 k)) :
    loadError (s.indexAddrs n) = none := by
  refine loadError_eq_none.2 fun a ha => ?_
  obtain ⟨k, hk, rfl⟩ := State.mem_indexAddrs.1 ha
  exact h k hk

theorem State.storeError_index_eq_none (h : ∀ k : Nat, k < n → inMemory (s.i + BitVec.ofNat 16 k) ∧
    (s.config.fontRegionWrite = .fault → 0x04F < (s.i + BitVec.ofNat 16 k).toNat)) :
    s.storeError (s.indexAddrs n) = none := by
  refine State.storeError_eq_none.2 ⟨loadError_eq_none.1 (State.loadError_index_eq_none fun k hk => (h k hk).1),
    fun hp a ha => ?_⟩
  obtain ⟨k, hk, rfl⟩ := State.mem_indexAddrs.1 ha
  exact (h k hk).2 hp

/-- The lowest offset outside memory is the one the check reports (R257). -/
theorem State.loadError_index_eq_some (hk : k < n) (hout : ¬ inMemory (s.i + BitVec.ofNat 16 k))
    (hlt : ∀ j : Nat, j < k → inMemory (s.i + BitVec.ofNat 16 j)) :
    loadError (s.indexAddrs n) = some (.addressError (s.i + BitVec.ofNat 16 k)) := by
  have hfind : (s.indexAddrs n).find? outsideMemory = some (s.i + BitVec.ofNat 16 k) :=
    State.find?_indexAddrs hk (decide_eq_true (Nat.not_lt.1 hout))
      fun j hj => decide_eq_false (Nat.not_le.2 (hlt j hj))
  rw [loadError, hfind, Option.map_some]

/-- An address outside memory is reported before one in the font (R257). -/
theorem State.storeError_of_loadError {addrs : List Word} {e : CoreError} (h : loadError addrs = some e) :
    s.storeError addrs = some e := by
  rw [State.storeError, h]

/-- Under `Fault`, with every address in memory, the lowest offset in the font is the one reported (R255, R257). -/
theorem State.storeError_index_eq_some (hp : s.config.fontRegionWrite = .fault)
    (hin : ∀ j : Nat, j < n → inMemory (s.i + BitVec.ofNat 16 j)) (hk : k < n)
    (hfont : (s.i + BitVec.ofNat 16 k).toNat ≤ 0x04F)
    (hlt : ∀ j : Nat, j < k → 0x04F < (s.i + BitVec.ofNat 16 j).toNat) :
    s.storeError (s.indexAddrs n) = some (.fontRegionWrite (s.i + BitVec.ofNat 16 k)) := by
  have hfind : (s.indexAddrs n).find? inFont = some (s.i + BitVec.ofNat 16 k) :=
    State.find?_indexAddrs hk (decide_eq_true (Nat.lt_succ_of_le hfont))
      fun j hj => decide_eq_false (Nat.not_lt.2 (hlt j hj))
  rw [State.storeError, State.loadError_index_eq_none hin]
  simp only [hp, if_true, hfind, Option.map_some]

end

/-! ## What the stores and loads of an instruction do -/

section

variable (s : State)

/-- The shape R143 and R144 share: bytes stored from I on, where the check lets them through. Each address takes its
byte, unless policy `Ignore` drops it; the other addresses and all that is not memory are kept. -/
theorem State.storeCells_index_spec {n : Nat} {bs : List Byte} (hlen : bs.length = n) (hn : n ≤ 16)
    (hfault : s.config.fontRegionWrite = .fault → ∀ k : Nat, k < n → 0x04F < (s.i + BitVec.ofNat 16 k).toNat) :
    (∀ (k : Nat) (hk : k < n),
      (s.config.fontRegionWrite = .ignore → 0x04F < (s.i + BitVec.ofNat 16 k).toNat) →
      (s.storeCells ((s.indexAddrs n).zip bs)).byteAt (s.i + BitVec.ofNat 16 k).toNat = bs[k]) ∧
    sameMemoryOutside s (s.storeCells ((s.indexAddrs n).zip bs))
      ((List.range n).map fun k => s.i + BitVec.ofNat 16 k) ∧
    (s.config.fontRegionWrite = .ignore → ∀ a : Nat, a ≤ 0x04F →
      (s.storeCells ((s.indexAddrs n).zip bs)).byteAt a = s.byteAt a) := by
  subst hlen
  refine ⟨fun k hk hignore => s.byteAt_storeCells_index bs (by omega) hk ?_, fun a ha => ?_, fun hp a ha => ?_⟩
  · cases hp : s.config.fontRegionWrite with
    | fault => exact .inl (hfault hp k hk)
    | write => exact .inr rfl
    | ignore => exact .inl (hignore hp)
  · refine s.byteAt_storeCells_index_of_ne _ bs a fun k hk => ha _ ?_
    exact List.mem_map.2 ⟨k, List.mem_range.2 hk, rfl⟩
  · exact s.byteAt_storeCells_font _ (hp ▸ FontPolicy.noConfusion) (Nat.lt_succ_of_le ha)

/-- The digits of a byte, hundreds first, as numbers (R143). -/
theorem toNat_getElem_bcdDigits (b : Byte) {k digit : Nat} (hk : k < (bcdDigits b).length)
    (h : k = 0 ∧ digit = b.toNat / 100 ∨ k = 1 ∧ digit = b.toNat / 10 % 10 ∨ k = 2 ∧ digit = b.toNat % 10) :
    (bcdDigits b)[k].toNat = digit := by
  obtain ⟨rfl, rfl⟩ | ⟨rfl, rfl⟩ | ⟨rfl, rfl⟩ := h
  · exact BitVec.toNat_udiv
  · exact BitVec.toNat_umod.trans (congrArg (· % 10) BitVec.toNat_udiv)
  · exact BitVec.toNat_umod

@[simp] theorem State.length_regsThrough (x : Nibble) : (s.regsThrough x).length = x.toNat + 1 := by
  simp [State.regsThrough]

theorem State.getElem_regsThrough (x : Nibble) {k : Nat} (hk : k < (s.regsThrough x).length) :
    (s.regsThrough x)[k] = s.reg (BitVec.ofNat 4 k) := by
  simp [State.regsThrough, regNumber]

theorem State.getElem?_indexBytes {n k : Nat} (hk : k < n) :
    (s.indexBytes n)[k]? = some (s.byteAt (s.i + BitVec.ofNat 16 k).toNat) := by
  simp [State.indexBytes, State.indexAddrs, State.indexAddr, State.memRead, hk]

/-- The registers after a bulk load (R145). -/
theorem State.reg_bulkLoad (x r : Nibble) :
    (s.setRegsFrom 0 (s.indexBytes (x.toNat + 1))).reg r =
      if r ≤ x then s.byteAt (s.i + BitVec.ofNat 16 r.toNat).toNat else s.reg r := by
  have hx := x.isLt
  rw [s.reg_setRegsFrom 0 _ (by rw [State.length_indexBytes]; omega), if_pos (Nat.zero_le _), Nat.sub_zero]
  split
  · next hr => rw [s.getElem?_indexBytes (Nat.lt_succ_of_le hr), Option.getD_some]
  · next hr =>
    have hlen : (s.indexBytes (x.toNat + 1)).length ≤ r.toNat := by
      rw [State.length_indexBytes]
      exact Nat.not_le.1 hr
    rw [List.getElem?_eq_none hlen, Option.getD_none]

/-- I after a bulk transfer, as a number in Baseline. -/
theorem State.indexAfterBulk_spec (x : Nibble) :
    (s.variant = .baseline → (s.indexAfterBulk x).toNat = (s.i.toNat + x.toNat + 1) % 65536) ∧
      (s.variant ≠ .baseline → s.indexAfterBulk x = s.i) := by
  rw [State.indexAfterBulk_eq]
  refine ⟨fun hv => ?_, fun hv => if_neg hv⟩
  have hx := x.isLt
  rw [if_pos hv, BitVec.toNat_add, BitVec.toNat_ofNat, Nat.mod_eq_of_lt (by omega : x.toNat + 1 < 2 ^ 16)]
  rfl

end

/-! ## The statements -/

/-- Settles O31: the check lets the three digits through to `State.storeCells_index_spec`. -/
theorem decimalConversionStores : Obligations.DecimalConversionStores := by
  intro s x h
  refine ⟨⟨s.storeCells ((s.indexAddrs 3).zip (bcdDigits (s.reg x))), ?_, ?_⟩, stands_encode (.ldBVx x)⟩
  · rw [exec, execLdBVx, State.storeError_index_eq_none h, State.guarded_none]
  · obtain ⟨hbyte, houtside, hignore⟩ :=
      s.storeCells_index_spec (n := 3) (bs := bcdDigits (s.reg x)) rfl (by decide) fun hp k hk => (h k hk).2 hp
    refine ⟨fun k digit hdigit hk => ?_, houtside, hignore, frame_of_eq_but_mem (s.storeCells_eq _)⟩
    have hlt : k < 3 := by omega
    exact (congrArg BitVec.toNat (hbyte k hlt hk)).trans (toNat_getElem_bcdDigits _ hlt hdigit)

/-- Settles O32: the check lets the registers through to `State.storeCells_index_spec`. -/
theorem bulkStoreStoresTheRegisters : Obligations.BulkStoreStoresTheRegisters := by
  intro s x h
  have hx := x.isLt
  refine ⟨⟨(s.storeCells ((s.indexAddrs (x.toNat + 1)).zip (s.regsThrough x))).setIndex (s.indexAfterBulk x),
    ?_, ?_⟩, stands_encode (.ldMemVx x)⟩
  · rw [exec, execLdMemVx, State.storeError_index_eq_none fun k hk => h k (Nat.le_of_lt_succ hk),
      State.guarded_none]
  · obtain ⟨hbyte, houtside, hignore⟩ := s.storeCells_index_spec (s.length_regsThrough x) (by omega)
      fun hp k hk => (h k (Nat.le_of_lt_succ hk)).2 hp
    obtain ⟨hbase, hother⟩ := s.indexAfterBulk_spec x
    obtain ⟨hregs, hpc, -, hframe⟩ := frame_of_eq_but_mem (s.storeCells_eq
      ((s.indexAddrs (x.toNat + 1)).zip (s.regsThrough x)))
    refine ⟨fun k hk hfont => ?_, houtside, hignore, hbase, hother, hregs, hpc, hframe⟩
    exact (hbyte k (by omega) hfont).trans (s.getElem_regsThrough x _)

/-- Settles O33: the check lets the bytes through to the registers (`State.reg_bulkLoad`). -/
theorem bulkLoadLoadsTheRegisters : Obligations.BulkLoadLoadsTheRegisters := by
  intro s x h
  refine ⟨⟨(s.setRegsFrom 0 (s.indexBytes (x.toNat + 1))).setIndex (s.indexAfterBulk x), ?_, ?_⟩,
    stands_encode (.ldVxMem x)⟩
  · rw [exec, execLdVxMem, State.loadError_index_eq_none fun k hk => h k (Nat.le_of_lt_succ hk),
      State.guarded_none]
  · obtain ⟨hbase, hother⟩ := s.indexAfterBulk_spec x
    obtain ⟨hpc, -, hframe⟩ := onlyRegs_of_eq (s.setRegsFrom_eq 0 (s.indexBytes (x.toNat + 1)))
    refine ⟨fun r hr => ?_, fun r hr => ?_, hbase, hother, hpc, hframe⟩
    · exact (s.reg_bulkLoad x r).trans (if_pos hr)
    · exact (s.reg_bulkLoad x r).trans (if_neg hr)

/-- Settles O34: each of the four makes the check before it writes, and the check finds that address. -/
theorem firstAddressOutsideMemoryIsRaised : Obligations.FirstAddressOutsideMemoryIsRaised := by
  intro s i x y n len k hi hk hout hlt
  have hload := State.loadError_index_eq_some hk hout hlt
  refine ⟨_, ?_, s.tookError_raise _⟩
  obtain ⟨rfl, rfl⟩ | ⟨rfl, rfl⟩ | ⟨rfl, rfl⟩ | ⟨rfl, rfl⟩ := hi
  · rw [exec, execLdBVx, State.storeError_of_loadError hload, State.guarded_some]
  · rw [exec, execLdMemVx, State.storeError_of_loadError hload, State.guarded_some]
  · rw [exec, execLdVxMem, hload, State.guarded_some]
  · rw [exec, execDrw, hload]
    rfl

/-- Settles O35: both make the check before they write, and the check finds that address. -/
theorem firstFontAddressIsRaised : Obligations.FirstFontAddressIsRaised := by
  intro s i x len k hp hi hin hk hfont hlt
  have hstore := State.storeError_index_eq_some hp hin hk hfont hlt
  refine ⟨_, ?_, s.tookError_raise _⟩
  obtain ⟨rfl, rfl⟩ | ⟨rfl, rfl⟩ := hi
  · rw [exec, execLdBVx, hstore, State.guarded_some]
  · rw [exec, execLdMemVx, hstore, State.guarded_some]

/-- Settles O36: the load reads the bytes that the store left at the same addresses. -/
theorem bulkStoreThenLoadRestores : Obligations.BulkStoreThenLoadRestores := by
  intro s t x v h hstore
  obtain ⟨⟨t', ht', hbyte, -⟩, -⟩ :=
    bulkStoreStoresTheRegisters s x fun k hk => ⟨(h k hk).1, fun _ => (h k hk).2⟩
  cases hstore.symm.trans ht'
  obtain ⟨⟨u, hu, hreg, -⟩, -⟩ :=
    bulkLoadLoadsTheRegisters { t with i := s.i, v := v } x fun k hk => (h k hk).1
  refine ⟨u, hu, fun r hr => (hreg r hr).trans ?_⟩
  refine (hbyte r.toNat hr fun _ => (h r.toNat hr).2).trans ?_
  rw [BitVec.ofNat_toNat, BitVec.setWidth_eq]

/-- A store of V0 and V1 at the word that `pc` stands at, outside the font: that word is now theirs (R64). -/
theorem exec_bulkStore_at_pc {s t : State} (h : exec (.ldMemVx 1) s = .next t) (hindex : s.i = s.pc)
    (hpc : s.pc.toNat ≤ 0x0FFE) (hfont : 0x04F < s.pc.toNat) :
    wordOfBytes (t.byteAt s.pc.toNat) (t.byteAt (s.pc.toNat + 1)) = wordOfBytes (s.reg 0) (s.reg 1) ∧
      t.pc = s.pc ∧ sameRegs s t ∧ t.variant = s.variant ∧ t.config = s.config ∧ t.batchLeft = s.batchLeft := by
  have haddr : ∀ k : Nat, k ≤ 1 → (s.i + BitVec.ofNat 16 k).toNat = s.pc.toNat + k := by
    intro k hk
    rw [hindex, BitVec.toNat_add, BitVec.toNat_ofNat]
    omega
  have hstore : ∀ k : Nat, k ≤ 1 →
      inMemory (s.i + BitVec.ofNat 16 k) ∧ 0x04F < (s.i + BitVec.ofNat 16 k).toNat := by
    intro k hk
    rw [inMemory, haddr k hk]
    omega
  obtain ⟨⟨t', ht', hbyte, -, -, -, -, hregs, hpct, -, -, -, hsetup, htick, -⟩, -⟩ :=
    bulkStoreStoresTheRegisters s 1 fun k hk => ⟨(hstore k hk).1, fun _ => (hstore k hk).2⟩
  cases h.symm.trans ht'
  obtain ⟨-, hvariant, hconfig, -⟩ := hsetup
  obtain ⟨-, -, hleft, -⟩ := htick
  have hstored : ∀ k : Nat, k ≤ 1 → t.byteAt (s.pc.toNat + k) = s.reg (BitVec.ofNat 4 k) :=
    fun k hk => haddr k hk ▸ hbyte k hk fun _ => (hstore k hk).2
  refine ⟨?_, hpct, hregs, hvariant, hconfig, hleft⟩
  rw [hstored 1 le_rfl]
  exact congrArg (wordOfBytes · _) (hstored 0 (by decide))

/-- Settles O37: the two bytes of the next word are the ones that the store of V0 and V1 left there. -/
theorem aStoreIsSeenByTheNextFetch : Obligations.AStoreIsSeenByTheNextFetch := by
  intro s i hbatch hpc hfont hindex hword hdecode
  have hpc2 : s.countCycle.advancePc.pc.toNat = s.pc.toNat + 2 :=
    (BitVec.toNat_add s.pc 2).trans (Nat.mod_eq_of_lt (show s.pc.toNat + 2 < 65536 by omega))
  have hpc4 : s.pc + 2 + 2 = s.pc + 4 := BitVec.add_assoc s.pc 2 2
  have hstands : decode s.variant s.config 0xF155 = .ok (.ldMemVx 1) := stands_encode (.ldMemVx 1) _ _ rfl
  obtain ⟨t, ht, hcycle⟩ := State.cycle_of_decode (s := s) (by omega) (hword ▸ hstands)
  obtain ⟨hnext, hpct, hregs, hvariant, hconfig, hleft⟩ :=
    exec_bulkStore_at_pc ht hindex (by omega) (by omega)
  have hleft1 : t.batchLeft = s.batchLeft - 1 := hleft
  rw [← hpct] at hnext hpc2
  obtain ⟨u, hu, hcycle'⟩ := State.cycle_of_decode (s := tickEnded t) (i := i)
    (show t.pc.toNat ≤ 0x0FFE by omega)
    (show decode t.variant t.config (wordOfBytes (t.byteAt t.pc.toNat) (t.byteAt (t.pc.toNat + 1))) = .ok i by
      rw [hnext, hvariant, hconfig]; exact hdecode)
  have hadvanced : (tickEnded t).countCycle.advancePc =
      { tickEnded t with pc := t.pc + 2, batchLeft := t.batchLeft - 1 } := rfl
  rw [hpct, hleft1, Nat.sub_sub, State.advancePc_pc, State.countCycle_pc, hpc4] at hadvanced
  refine ⟨tickEnded t, ?_, hpct, hregs, u, hadvanced ▸ hu, ?_⟩
  · rw [step_of_inTick (by omega), hcycle]
  · rw [step_of_inTick (s := tickEnded t) (show t.batchLeft ≠ 0 by omega), hcycle']

end Sys2Proof.Machine
end

section
/-! Proofs of the statements about the call with its return, the key wait and the halt sentinel inside a tick
(42_control_flow.md). -/

namespace Sys2Proof.Machine

open Sys2Proof

section

variable {s : State}

/-- The lowest pressed key is the one the key wait finds (R170, D12). -/
theorem State.lowestKey_eq_some {k : Nibble} (hk : s.key k = true) (hlt : ∀ j : Nibble, j < k → s.key j = false) :
    s.lowestKey = some k := by
  have hself : regNumber k.toNat = k := by simp [regNumber]
  rw [State.lowestKey, List.find?_eq_some_iff_getElem]
  refine ⟨hk, k.toNat, by simpa using k.isLt, by simpa using hself, fun j hj => ?_⟩
  have hbelow : regNumber j < k := by
    rw [BitVec.lt_def, regNumber, BitVec.toNat_ofNat]
    exact (Nat.mod_le j _).trans_lt hj
  simp [hlt _ hbelow]

theorem State.lowestKey_eq_none (h : ∀ k : Nibble, s.key k = false) : s.lowestKey = none := by
  simp [State.lowestKey, h]

/-- With no key pressed the key wait sets `pc` back and does nothing else. -/
theorem exec_keyWait_of_no_key (x : Nibble) (h : ∀ k : Nibble, s.key k = false) :
    exec (.ldVxK x) s = .next (s.jump s.instrAddr) := by
  rw [exec, execLdVxK, State.lowestKey_eq_none h]

end

/-! ## The statements -/

/-- Settles O41: the return takes the address that the call pushed, and both leave the slots below it alone. -/
theorem returnUndoesCall : Obligations.ReturnUndoesCall := by
  intro s t nnn pc hsp hcall
  obtain ⟨t', ht', hslot, htop, -, hbelow, -⟩ := (callPushesOrOverflows s nnn).1 hsp
  cases hcall.symm.trans ht'
  obtain ⟨u, hu, hpc, hspu, hstack, -⟩ := (returnPopsOrUnderflows { t with pc := pc }).1 s.sp htop.symm
  refine ⟨u, hu, hpc.trans hslot, hspu, fun k hk => ?_⟩
  rw [hstack]
  exact hbelow k fun heq => absurd hk (heq ▸ Nat.lt_irrefl _)

/-- Settles O44: the wait records the key that `State.lowestKey` finds, or jumps to itself. -/
theorem keyWaitRecordsTheLowestKey : Obligations.KeyWaitRecordsTheLowestKey := by
  intro s x
  refine ⟨fun k hk hlt => ⟨s.setReg x (k.zeroExtend 8), ?_, ?_, s.sameRegsBut_setReg x _, s.onlyRegs_setReg x _⟩,
    fun hnone => ⟨_, exec_keyWait_of_no_key x hnone, rfl, s.onlyPc_jump _⟩, stands_encode (.ldVxK x)⟩
  · rw [exec, execLdVxK, State.lowestKey_eq_some hk hlt]
  · rw [s.reg_setReg_self]
    exact BitVec.toNat_setWidth_of_le (by decide)

/-- Settles O45: the wait sets `pc` back to where the cycle found it, and no result stood inside the tick. -/
theorem keyWaitSpins : Obligations.KeyWaitSpins := by
  intro s x hinv hbatch hpc hword hnone
  obtain ⟨hopen, -, -⟩ := hinv.in_tick hbatch
  have hstands : decode s.variant s.config (wordXNN 0xF x 0x0A) = .ok (.ldVxK x) :=
    stands_encode (.ldVxK x) _ _ rfl
  obtain ⟨u, hu, hcycle⟩ := State.cycle_of_decode hpc (hword ▸ hstands)
  cases hu.symm.trans (exec_keyWait_of_no_key (s := s.countCycle.advancePc) x hnone)
  refine ⟨_, (step_of_inTick hbatch).trans hcycle, rfl, BitVec.add_sub_cancel s.pc 2, fun _ => rfl, rfl,
    fun _ => rfl, ⟨rfl, rfl⟩, ⟨rfl, rfl⟩, ⟨fun _ _ => rfl, rfl, rfl⟩, ⟨rfl, rfl, rfl, rfl, rfl⟩, rfl, rfl, rfl, rfl,
    ?_⟩
  have hlast : s.batchLeft - 1 = 0 ∧ s.tickResult = none ↔ s.batchLeft = 1 := by
    rw [and_iff_left hopen]
    omega
  exact if_congr hlast rfl hopen

/-- Settles O47: the halt ends the batch with no result standing, so the end of the cycle gives `Ok`. -/
theorem aHaltedTickReturnsOk : Obligations.AHaltedTickReturnsOk := by
  intro s hinv hbatch hpc hhigh hlow
  obtain ⟨hopen, -, -⟩ := hinv.in_tick hbatch
  have hword : wordOfBytes (s.byteAt s.pc.toNat) (s.byteAt (s.pc.toNat + 1)) = 0x00FD := by
    rw [hhigh, hlow]
    rfl
  have hstands : decode s.variant s.config 0x00FD = .ok .exit := stands_encode .exit _ _ rfl
  obtain ⟨u, hu, hcycle⟩ := State.cycle_of_decode hpc (hword ▸ hstands)
  cases hu
  exact ⟨_, (step_of_inTick hbatch).trans hcycle, rfl, if_pos ⟨rfl, hopen⟩, rfl, rfl, rfl⟩

end Sys2Proof.Machine
end

section
/-! Proofs of the statements about the scrolls and the draw (44_raster.md). -/

namespace Sys2Proof.Machine

open Sys2Proof

/-- The shape R214 to R216 share: the active region takes the pixels that `f` computes, the others are kept, and the
write of the buffer is all else. -/
theorem State.setDisp_scroll_spec (s : State) {d : Display} {f : Nat → Nat → Bool}
    (hd : ∀ row col : Nat, d.pixel row col =
      if row < s.mode.height ∧ col < s.mode.width then f row col else s.disp.pixel row col) :
    (∀ row col : Nat, row < s.mode.height → col < s.mode.width → (s.setDisp d).pixel row col = f row col) ∧
      (∀ row col : Nat, ¬ (row < s.mode.height ∧ col < s.mode.width) →
        (s.setDisp d).pixel row col = s.pixel row col) ∧
      (s.setDisp d).dirty = true ∧ (s.setDisp d).mode = s.mode ∧ sameRegs s (s.setDisp d) ∧
      onlyScreenAndRegs s (s.setDisp d) :=
  ⟨fun row col hr hc => (hd row col).trans (if_pos ⟨hr, hc⟩),
    fun row col hout => (hd row col).trans (if_neg hout), s.setDisp_frame d⟩

/-- Settles O51: the pixels are those of `Display.pixel_scrollDown`. -/
theorem scrollDownMovesRows : Obligations.ScrollDownMovesRows :=
  ⟨fun s n => ⟨_, rfl, s.setDisp_scroll_spec (s.disp.pixel_scrollDown s.mode n.toNat)⟩,
    fun n => stands_encode (.scd n), fun _ n hc => decode_baseline_encode (i := .scd n) rfl hc⟩

/-- Settles O52: the pixels are those of `Display.pixel_scrollRight` and `Display.pixel_scrollLeft`. -/
theorem sideScrollsMoveColumns : Obligations.SideScrollsMoveColumns :=
  ⟨fun s => ⟨⟨_, rfl, s.setDisp_scroll_spec (s.disp.pixel_scrollRight s.mode)⟩,
      ⟨_, rfl, s.setDisp_scroll_spec (s.disp.pixel_scrollLeft s.mode)⟩⟩,
    stands_encode .scr, stands_encode .scl,
    fun _ hc => ⟨decode_baseline_encode (i := .scr) rfl hc, decode_baseline_encode (i := .scl) rfl hc⟩⟩

/-! ## The draw -/

/-- Where a sprite pixel lands, by the variant: past an edge it is dropped in Baseline and Extended and wrapped in
ExtendedAlt (R211). -/
theorem State.spriteTarget_eq_some_iff (s : State) {w h px py row col : Nat} :
    spriteTarget s.quirk.clipsAtEdge w h px py = some (row, col) ↔
      (s.variant ≠ .extendedAlt ∧ px = col ∧ py = row ∧ col < w ∧ row < h) ∨
        (s.variant = .extendedAlt ∧ px % w = col ∧ py % h = row) := by
  have hclip : s.quirk.clipsAtEdge = decide (s.variant ≠ .extendedAlt) := by
    unfold State.quirk
    cases s.variant <;> rfl
  rw [hclip, spriteTarget]
  by_cases hv : s.variant = .extendedAlt
  · simp only [hv, ne_eq, not_true_eq_false, decide_false, Bool.false_eq_true, if_false, Option.some.injEq,
      Prod.mk.injEq, false_and, true_and, false_or]
    exact and_comm
  · simp only [hv, ne_eq, not_false_eq_true, decide_true, if_true, Bool.or_eq_true, decide_eq_true_eq,
      true_and, false_and, or_false]
    split
    · next hout =>
      simp only [reduceCtorEq, false_iff]
      omega
    · next hin =>
      simp only [Option.some.injEq, Prod.mk.injEq]
      omega

/-- The draw of a state flips the pixels that its sprite covers. -/
theorem State.flipped_spriteCovers (s : State) (x y n : Nibble) :
    Flipped { disp := s.disp, coll := false } (s.drawSprite x y (s.indexBytes n.toNat)) (spriteCovers s x y n) := by
  refine (s.flipped_drawSprite x y n).congr fun row col => ?_
  simp only [State.spriteTarget_eq_some_iff, spriteCovers]

theorem exec_drw_of_inMemory {s : State} (x y : Nibble) {n : Nibble}
    (h : ∀ r : Nat, r < n.toNat → inMemory (s.i + BitVec.ofNat 16 r)) :
    exec (.drw x y n) s = .next ((s.setDisp (s.drawSprite x y (s.indexBytes n.toNat)).disp).setFlag
      (s.drawSprite x y (s.indexBytes n.toNat)).coll) := by
  rw [exec, execDrw, State.loadError_index_eq_none h]
  rfl

/-- Settles O53: the canvas of the draw is the flip of the covered pixels (`State.flipped_spriteCovers`). -/
theorem drawFlipsTheCoveredPixels : Obligations.DrawFlipsTheCoveredPixels := by
  intro s x y n h
  obtain ⟨hpixels, hcoll⟩ := s.flipped_spriteCovers x y n
  refine ⟨⟨_, exec_drw_of_inMemory x y h, hpixels, ?_, rfl, rfl, ?_, onlyScreenAndRegs_of_eq rfl⟩,
    stands_encode (.drw x y n)⟩
  · rw [State.setFlag_eq]
    refine (State.reg_setReg_self _ vf _).symm ▸ isFlag_flagByte (hcoll.trans ?_)
    exact or_iff_right Bool.false_ne_true
  · exact fun r hr => State.reg_setReg_of_ne _ _ hr

/-- The sprite covers the same pixels of two states that agree on I, the bytes there, the coordinates, the mode and
the variant. -/
theorem spriteCovers_congr {s t : State} {x y n : Nibble} (hi : t.i = s.i) (hmem : sameMemory s t)
    (hx : t.reg x = s.reg x) (hy : t.reg y = s.reg y) (hmode : t.mode = s.mode) (hvariant : t.variant = s.variant)
    (row col : Nat) : spriteCovers t x y n row col ↔ spriteCovers s x y n row col := by
  have hbyte : ∀ a : Word, t.memRead a = s.memRead a := fun a => hmem a.toNat
  simp only [spriteCovers, hbyte, hi, hx, hy, hmode, hvariant]

/-- Settles O54: the second draw covers the same pixels, so it flips each of them back, and a collision is a covered
pixel that the first draw turned on. -/
theorem drawingTwiceRestoresTheBuffer : Obligations.DrawingTwiceRestoresTheBuffer := by
  intro s t x y n hx hy h hdraw
  obtain ⟨⟨t', ht', hpixels, -, -, hmode, hregs, -, hi, hmem, -, -, ⟨-, hvariant, -⟩, -⟩, -⟩ :=
    drawFlipsTheCoveredPixels s x y n h
  cases hdraw.symm.trans ht'
  have hcovers : ∀ row col : Nat, spriteCovers t x y n row col ↔ spriteCovers s x y n row col :=
    spriteCovers_congr hi hmem (hregs x hx) (hregs y hy) hmode hvariant
  obtain ⟨⟨u, hu, hpixels', hflag, -⟩, -⟩ := drawFlipsTheCoveredPixels t x y n (hi ▸ h)
  refine ⟨u, hu, fun row col => ?_, ?_⟩
  · by_cases hc : spriteCovers s x y n row col
    · rw [(hpixels' row col).1 ((hcovers row col).2 hc), (hpixels row col).1 hc, Bool.not_not]
    · rw [(hpixels' row col).2 fun hc' => hc ((hcovers row col).1 hc'), (hpixels row col).2 hc]
  · have hcollision : (∃ row col : Nat, spriteCovers t x y n row col ∧ t.pixel row col = true) ↔
        ∃ row col : Nat, spriteCovers s x y n row col ∧ s.pixel row col = false := by
      refine exists_congr fun row => exists_congr fun col => ?_
      rw [hcovers]
      refine and_congr_right fun hc => ?_
      rw [(hpixels row col).1 hc, Bool.not_eq_true']
    rwa [isFlag, hcollision] at hflag

end Sys2Proof.Machine
end

section
/-! Proofs of the statements about construction and the host's operations (10_state.md, 70_reset_and_hazards.md). -/

namespace Sys2Proof.Machine

open Sys2Proof

/-- The bytes of `FONT_TABLE` stand after the five bytes of glyph 0 (R52). -/
theorem Memory.background_fontTable (g : Glyphs) (k : Fin 75) : Memory.background g (5 + k.val) = g[k.val] := by
  have hglyph : glyphZero.length = 5 := rfl
  rw [Memory.background, fontBytes, List.getD_eq_getElem?_getD, List.getElem?_append_right (by omega), hglyph,
    Nat.add_sub_cancel_left]
  simp

/-- Settles O55: the fields are those of `State.construct`, and with nothing stored memory reads as its background. -/
theorem constructionValues : Obligations.ConstructionValues := by
  rintro v c s rfl
  refine ⟨rfl, rfl, rfl, rfl, rfl, rfl, rfl, rfl, Memory.background_fontTable c.fontTable,
    fun a ha => Memory.background_above_font ha, fun r => ?_, rfl, rfl, fun k => ?_, rfl, rfl,
    Display.pixel_blank, rfl, rfl, fun k => ?_, rfl, rfl, rfl⟩
  · exact Vector.getElem_replicate _
  · exact Vector.getElem_replicate _
  · exact Vector.getElem_replicate _

/-- The bytes after a load (R292, R293). -/
theorem State.byteAt_load (s : State) (bytes : List Byte) (a : Nat) :
    (s.load bytes).byteAt a =
      if 0x200 ≤ a then ((bytes.take 3584)[a - 0x200]?).getD (s.byteAt a) else s.byteAt a :=
  Memory.read_writeFrom s.mem programStart (bytes.take maxProgramLen) a

/-- Settles O56: the bytes are those of `State.byteAt_load`, and the move writes memory only. -/
theorem loadWritesTheProgram : Obligations.LoadWritesTheProgram := by
  intro s bytes hs
  refine ⟨s.load bytes, State.drive_of_betweenTicks hs _, fun k hk hk' => ?_, fun a ha => ?_,
    frame_of_eq_but_mem rfl⟩
  · have hlen : k < (bytes.take 3584).length := by
      rw [List.length_take]
      omega
    rw [State.byteAt_load, if_pos (Nat.le_add_right _ _), Nat.add_sub_cancel_left, List.getElem?_eq_getElem hlen,
      Option.getD_some, List.getElem_take]
  · rw [State.byteAt_load]
    split
    · have hlen : (bytes.take 3584).length ≤ a - 0x200 := by
        rw [List.length_take]
        omega
      rw [List.getElem?_eq_none hlen, Option.getD_none]
    · rfl

/-- A key written is read back, and no other key changes (R30). -/
theorem State.key_writeKey (s : State) (k : Nibble) (b : Bool) (j : Nibble) :
    (s.writeKey k b).key j = if j = k then b else s.key j := by
  by_cases h : j = k
  · subst h
    simp [State.key, State.writeKey]
  · have hne : k.toNat ≠ j.toNat := fun e => h (BitVec.eq_of_toNat_eq e.symm)
    simp [State.key, State.writeKey, h, hne]

/-- Settles O58: inside a tick there is no move, and between ticks each is one write. -/
theorem hostMovesBetweenTicks : Obligations.HostMovesBetweenTicks := by
  refine ⟨fun s a hs => if_neg fun h => hs (beq_iff_eq.1 h), fun s hs => ?_, fun s hs => ?_, fun s k b hs => ?_⟩
  · rw [State.drive_of_betweenTicks hs]
    exact ⟨rfl, rfl⟩
  · exact ⟨s.clearDirty, State.drive_of_betweenTicks hs _, rfl, s.pixel_clearDirty, rfl, s.reg_clearDirty,
      onlyScreenAndRegs_of_eq rfl⟩
  · exact ⟨s.writeKey k b, State.drive_of_betweenTicks hs _, (s.key_writeKey k b k).trans (if_pos rfl),
      fun j hj => (s.key_writeKey k b j).trans (if_neg hj), rfl, rfl, rfl, rfl, s.reg_writeKey k b, rfl, rfl,
      s.byteAt_writeKey k b, ⟨rfl, rfl⟩, ⟨rfl, rfl⟩, ⟨s.pixel_writeKey k b, rfl, rfl⟩,
      ⟨rfl, rfl, rfl, rfl, rfl⟩, rfl⟩

end Sys2Proof.Machine
end
